-- ==== Sys2Proof/Word.lean ====
section
/-!
DEFINITION. The word types of the DXT-960 (R3, R4) and their plainest arithmetic.
-/
namespace Sys2Proof

/-- A 64-bit scalar register or instruction word. -/
abbrev W64 := BitVec 64
/-- One lane of a vector register. -/
abbrev W32 := BitVec 32
/-- One bit per lane of a pack (R13). -/
abbrev Lanes := BitVec 16
/-- A 9-bit register field (R191). -/
abbrev Fld := BitVec 9
/-- The guard field: bit 3 negates, bits 2 to 0 name P0 to P7 (R190). -/
abbrev Guard := BitVec 4

end Sys2Proof
end

