-- ==== Sys2Proof/Syntax.lean ====
section
/-!
DEFINITION. The instructions and events of the DXT-960 as terms: one constructor per row of the opcode table.
-/
namespace Sys2Proof

/-- TYPE codes of R198. -/
inductive IntTy where
  | i8 | i16 | i32 | i64 | n8 | n16 | n32 | n64
  deriving DecidableEq, Repr

/-- The code of IntTy (TYPE codes of R198). -/
def IntTy.code : IntTy → BitVec 3
  | .i8 => 0
  | .i16 => 1
  | .i32 => 2
  | .i64 => 3
  | .n8 => 4
  | .n16 => 5
  | .n32 => 6
  | .n64 => 7

/-- The IntTy a code names; `none` where the code is illegal. -/
def IntTy.ofCode (c : BitVec 3) : Option IntTy :=
  if c = 0 then some .i8 else if c = 1 then some .i16 else if c = 2 then some .i32 else if c = 3 then some .i64 else if c = 4 then some .n8 else if c = 5 then some .n16 else if c = 6 then some .n32 else if c = 7 then some .n64 else none

/-- RND codes of R198. -/
inductive Rnd where
  | rn | rz | ru | rd | sr
  deriving DecidableEq, Repr

/-- The code of Rnd (RND codes of R198). -/
def Rnd.code : Rnd → BitVec 3
  | .rn => 0
  | .rz => 1
  | .ru => 2
  | .rd => 3
  | .sr => 4

/-- The Rnd a code names; `none` where the code is illegal. -/
def Rnd.ofCode (c : BitVec 3) : Option Rnd :=
  if c = 0 then some .rn else if c = 1 then some .rz else if c = 2 then some .ru else if c = 3 then some .rd else if c = 4 then some .sr else none

/-- REL codes of SCMP and VCMP (R224, R241). -/
inductive Rel where
  | eq | ne | lt | le | gt | ge
  deriving DecidableEq, Repr

/-- The code of Rel (REL codes of SCMP and VCMP (R224, R241)). -/
def Rel.code : Rel → BitVec 3
  | .eq => 0
  | .ne => 1
  | .lt => 2
  | .le => 3
  | .gt => 4
  | .ge => 5

/-- The Rel a code names; `none` where the code is illegal. -/
def Rel.ofCode (c : BitVec 3) : Option Rel :=
  if c = 0 then some .eq else if c = 1 then some .ne else if c = 2 then some .lt else if c = 3 then some .le else if c = 4 then some .gt else if c = 5 then some .ge else none

/-- REL codes of QCMP and FCMP (R230, R247). -/
inductive QRel where
  | gt | ge | eq | ne | lt | le
  deriving DecidableEq, Repr

/-- The code of QRel (REL codes of QCMP and FCMP (R230, R247)). -/
def QRel.code : QRel → BitVec 3
  | .gt => 0
  | .ge => 1
  | .eq => 2
  | .ne => 3
  | .lt => 4
  | .le => 5

/-- The QRel a code names; `none` where the code is illegal. -/
def QRel.ofCode (c : BitVec 3) : Option QRel :=
  if c = 0 then some .gt else if c = 1 then some .ge else if c = 2 then some .eq else if c = 3 then some .ne else if c = 4 then some .lt else if c = 5 then some .le else none

/-- combination rules of QAND and QOR (R231). -/
inductive QRule where
  | none | ind | dep
  deriving DecidableEq, Repr

/-- The code of QRule (combination rules of QAND and QOR (R231)). -/
def QRule.code : QRule → BitVec 2
  | .none => 0
  | .ind => 1
  | .dep => 2

/-- The QRule a code names; `none` where the code is illegal. -/
def QRule.ofCode (c : BitVec 2) : Option QRule :=
  if c = 0 then some .none else if c = 1 then some .ind else if c = 2 then some .dep else Option.none

/-- directions of QMOV (R235). -/
inductive QDir where
  | qq | fromV | toV
  deriving DecidableEq, Repr

/-- The code of QDir (directions of QMOV (R235)). -/
def QDir.code : QDir → BitVec 2
  | .qq => 0
  | .fromV => 1
  | .toV => 2

/-- The QDir a code names; `none` where the code is illegal. -/
def QDir.ofCode (c : BitVec 2) : Option QDir :=
  if c = 0 then some .qq else if c = 1 then some .fromV else if c = 2 then some .toV else none

/-- operations of QLIN (R236). -/
inductive LinOp where
  | set | clr | or
  deriving DecidableEq, Repr

/-- The code of LinOp (operations of QLIN (R236)). -/
def LinOp.code : LinOp → BitVec 2
  | .set => 0
  | .clr => 1
  | .or => 2

/-- The LinOp a code names; `none` where the code is illegal. -/
def LinOp.ofCode (c : BitVec 2) : Option LinOp :=
  if c = 0 then some .set else if c = 1 then some .clr else if c = 2 then some .or else none

/-- element formats of HFMA2 (R251). -/
inductive HFmt where
  | f16 | bf16
  deriving DecidableEq, Repr

/-- The code of HFmt (element formats of HFMA2 (R251)). -/
def HFmt.code : HFmt → BitVec 1
  | .f16 => 0
  | .bf16 => 1

/-- The HFmt a code names; `none` where the code is illegal. -/
def HFmt.ofCode (c : BitVec 1) : Option HFmt :=
  if c = 0 then some .f16 else if c = 1 then some .bf16 else none

/-- conversion format codes (R252). -/
inductive CFmt where
  | f32 | f16 | bf16 | e5m2 | e4m3 | e2m1 | i32 | n32 | i16 | n16 | i8 | n8 | i4 | n4 | q16
  deriving DecidableEq, Repr

/-- The code of CFmt (conversion format codes (R252)). -/
def CFmt.code : CFmt → BitVec 4
  | .f32 => 0
  | .f16 => 1
  | .bf16 => 2
  | .e5m2 => 3
  | .e4m3 => 4
  | .e2m1 => 5
  | .i32 => 6
  | .n32 => 7
  | .i16 => 8
  | .n16 => 9
  | .i8 => 10
  | .n8 => 11
  | .i4 => 12
  | .n4 => 13
  | .q16 => 14

/-- The CFmt a code names; `none` where the code is illegal. -/
def CFmt.ofCode (c : BitVec 4) : Option CFmt :=
  if c = 0 then some .f32 else if c = 1 then some .f16 else if c = 2 then some .bf16 else if c = 3 then some .e5m2 else if c = 4 then some .e4m3 else if c = 5 then some .e2m1 else if c = 6 then some .i32 else if c = 7 then some .n32 else if c = 8 then some .i16 else if c = 9 then some .n16 else if c = 10 then some .i8 else if c = 11 then some .n8 else if c = 12 then some .i4 else if c = 13 then some .n4 else if c = 14 then some .q16 else none

/-- destination formats of CVTMX (R256). -/
inductive MxFmt where
  | e5m2 | e4m3 | e2m1
  deriving DecidableEq, Repr

/-- The code of MxFmt (destination formats of CVTMX (R256)). -/
def MxFmt.code : MxFmt → BitVec 4
  | .e5m2 => 3
  | .e4m3 => 4
  | .e2m1 => 5

/-- The MxFmt a code names; `none` where the code is illegal. -/
def MxFmt.ofCode (c : BitVec 4) : Option MxFmt :=
  if c = 3 then some .e5m2 else if c = 4 then some .e4m3 else if c = 5 then some .e2m1 else none

/-- cache policies (R83). -/
inductive Policy where
  | dflt | glb | evf | nt
  deriving DecidableEq, Repr

/-- The code of Policy (cache policies (R83)). -/
def Policy.code : Policy → BitVec 2
  | .dflt => 0
  | .glb => 1
  | .evf => 2
  | .nt => 3

/-- The Policy a code names; `none` where the code is illegal. -/
def Policy.ofCode (c : BitVec 2) : Option Policy :=
  if c = 0 then some .dflt else if c = 1 then some .glb else if c = 2 then some .evf else if c = 3 then some .nt else none

/-- access widths of format M (R195). -/
inductive Width where
  | w1 | w2 | w4 | w8 | w16
  deriving DecidableEq, Repr

/-- The code of Width (access widths of format M (R195)). -/
def Width.code : Width → BitVec 3
  | .w1 => 0
  | .w2 => 1
  | .w4 => 2
  | .w8 => 3
  | .w16 => 4

/-- The Width a code names; `none` where the code is illegal. -/
def Width.ofCode (c : BitVec 3) : Option Width :=
  if c = 0 then some .w1 else if c = 1 then some .w2 else if c = 2 then some .w4 else if c = 3 then some .w8 else if c = 4 then some .w16 else none

/-- modes of VSHF (R258). -/
inductive ShMode where
  | idx | xor | up | down
  deriving DecidableEq, Repr

/-- The code of ShMode (modes of VSHF (R258)). -/
def ShMode.code : ShMode → BitVec 2
  | .idx => 0
  | .xor => 1
  | .up => 2
  | .down => 3

/-- The ShMode a code names; `none` where the code is illegal. -/
def ShMode.ofCode (c : BitVec 2) : Option ShMode :=
  if c = 0 then some .idx else if c = 1 then some .xor else if c = 2 then some .up else if c = 3 then some .down else none

/-- TYPE and FP of VRED and VSCAN (R258). -/
inductive RedTy where
  | i32 | n32 | f32
  deriving DecidableEq, Repr

/-- The code of RedTy (TYPE and FP of VRED and VSCAN (R258)). -/
def RedTy.code : RedTy → BitVec 4
  | .i32 => 4
  | .n32 => 12
  | .f32 => 5

/-- The RedTy a code names; `none` where the code is illegal. -/
def RedTy.ofCode (c : BitVec 4) : Option RedTy :=
  if c = 4 then some .i32 else if c = 12 then some .n32 else if c = 5 then some .f32 else none

/-- operations of VRED and VSCAN (R258). -/
inductive RedOp where
  | add | mul | min | max | and | or | xor
  deriving DecidableEq, Repr

/-- The code of RedOp (operations of VRED and VSCAN (R258)). -/
def RedOp.code : RedOp → BitVec 3
  | .add => 0
  | .mul => 1
  | .min => 2
  | .max => 3
  | .and => 4
  | .or => 5
  | .xor => 6

/-- The RedOp a code names; `none` where the code is illegal. -/
def RedOp.ofCode (c : BitVec 3) : Option RedOp :=
  if c = 0 then some .add else if c = 1 then some .mul else if c = 2 then some .min else if c = 3 then some .max else if c = 4 then some .and else if c = 5 then some .or else if c = 6 then some .xor else none

/-- modes of VBAL (R258). -/
inductive BalMode where
  | mask | pre | total
  deriving DecidableEq, Repr

/-- The code of BalMode (modes of VBAL (R258)). -/
def BalMode.code : BalMode → BitVec 2
  | .mask => 0
  | .pre => 1
  | .total => 2

/-- The BalMode a code names; `none` where the code is illegal. -/
def BalMode.ofCode (c : BitVec 2) : Option BalMode :=
  if c = 0 then some .mask else if c = 1 then some .pre else if c = 2 then some .total else none

/-- atomic operations (R273). -/
inductive AtomOp where
  | add | and | or | xor | exch | smin | smax | nmin | nmax
  deriving DecidableEq, Repr

/-- The code of AtomOp (atomic operations (R273)). -/
def AtomOp.code : AtomOp → BitVec 4
  | .add => 0
  | .and => 1
  | .or => 2
  | .xor => 3
  | .exch => 4
  | .smin => 5
  | .smax => 6
  | .nmin => 7
  | .nmax => 8

/-- The AtomOp a code names; `none` where the code is illegal. -/
def AtomOp.ofCode (c : BitVec 4) : Option AtomOp :=
  if c = 0 then some .add else if c = 1 then some .and else if c = 2 then some .or else if c = 3 then some .xor else if c = 4 then some .exch else if c = 5 then some .smin else if c = 6 then some .smax else if c = 7 then some .nmin else if c = 8 then some .nmax else none

/-- operations of FATOM (R275). -/
inductive FatOp where
  | add | min | max
  deriving DecidableEq, Repr

/-- The code of FatOp (operations of FATOM (R275)). -/
def FatOp.code : FatOp → BitVec 2
  | .add => 0
  | .min => 1
  | .max => 2

/-- The FatOp a code names; `none` where the code is illegal. -/
def FatOp.ofCode (c : BitVec 2) : Option FatOp :=
  if c = 0 then some .add else if c = 1 then some .min else if c = 2 then some .max else none

/-- formats of FATOM (R275). -/
inductive FatFmt where
  | f32 | bf16 | f16
  deriving DecidableEq, Repr

/-- The code of FatFmt (formats of FATOM (R275)). -/
def FatFmt.code : FatFmt → BitVec 2
  | .f32 => 0
  | .bf16 => 1
  | .f16 => 2

/-- The FatFmt a code names; `none` where the code is illegal. -/
def FatFmt.ofCode (c : BitVec 2) : Option FatFmt :=
  if c = 0 then some .f32 else if c = 1 then some .bf16 else if c = 2 then some .f16 else none

/-- range forms of CMO (R277). -/
inductive CmoForm where
  | clean | inval | cleaninv
  deriving DecidableEq, Repr

/-- The code of CmoForm (range forms of CMO (R277)). -/
def CmoForm.code : CmoForm → BitVec 2
  | .clean => 0
  | .inval => 1
  | .cleaninv => 2

/-- The CmoForm a code names; `none` where the code is illegal. -/
def CmoForm.ofCode (c : BitVec 2) : Option CmoForm :=
  if c = 0 then some .clean else if c = 1 then some .inval else if c = 2 then some .cleaninv else none

/-- levels of CMO (R277). -/
inductive CmoLevel where
  | l1 | l2 | mem
  deriving DecidableEq, Repr

/-- The code of CmoLevel (levels of CMO (R277)). -/
def CmoLevel.code : CmoLevel → BitVec 2
  | .l1 => 0
  | .l2 => 1
  | .mem => 2

/-- The CmoLevel a code names; `none` where the code is illegal. -/
def CmoLevel.ofCode (c : BitVec 2) : Option CmoLevel :=
  if c = 0 then some .l1 else if c = 1 then some .l2 else if c = 2 then some .mem else none

/-- ORD of the interpolating instructions (R280). -/
inductive OrdSel where
  | desc | o0 | o1 | o3
  deriving DecidableEq, Repr

/-- The code of OrdSel (ORD of the interpolating instructions (R280)). -/
def OrdSel.code : OrdSel → BitVec 2
  | .desc => 0
  | .o0 => 1
  | .o1 => 2
  | .o3 => 3

/-- The OrdSel a code names; `none` where the code is illegal. -/
def OrdSel.ofCode (c : BitVec 2) : Option OrdSel :=
  if c = 0 then some .desc else if c = 1 then some .o0 else if c = 2 then some .o1 else if c = 3 then some .o3 else none

/-- conditions of BRC (R197). -/
inductive BrcCond where
  | eqz | nez | ltz | gez | gtz | lez | al
  deriving DecidableEq, Repr

/-- The code of BrcCond (conditions of BRC (R197)). -/
def BrcCond.code : BrcCond → BitVec 4
  | .eqz => 0
  | .nez => 1
  | .ltz => 2
  | .gez => 3
  | .gtz => 4
  | .lez => 5
  | .al => 6

/-- The BrcCond a code names; `none` where the code is illegal. -/
def BrcCond.ofCode (c : BitVec 4) : Option BrcCond :=
  if c = 0 then some .eqz else if c = 1 then some .nez else if c = 2 then some .ltz else if c = 3 then some .gez else if c = 4 then some .gtz else if c = 5 then some .lez else if c = 6 then some .al else none

/-- counters (R70, R219). -/
inductive KCls where
  | ld | st | cpy | mx | nm | tq
  deriving DecidableEq, Repr

/-- The code of KCls (counters (R70, R219)). -/
def KCls.code : KCls → BitVec 3
  | .ld => 0
  | .st => 1
  | .cpy => 2
  | .mx => 3
  | .nm => 4
  | .tq => 5

/-- The KCls a code names; `none` where the code is illegal. -/
def KCls.ofCode (c : BitVec 3) : Option KCls :=
  if c = 0 then some .ld else if c = 1 then some .st else if c = 2 then some .cpy else if c = 3 then some .mx else if c = 4 then some .nm else if c = 5 then some .tq else none

/-- RFMT of CPYR (R199). -/
inductive RFmt where
  | f32 | bf16
  deriving DecidableEq, Repr

/-- The code of RFmt (RFMT of CPYR (R199)). -/
def RFmt.code : RFmt → BitVec 2
  | .f32 => 1
  | .bf16 => 2

/-- The RFmt a code names; `none` where the code is illegal. -/
def RFmt.ofCode (c : BitVec 2) : Option RFmt :=
  if c = 1 then some .f32 else if c = 2 then some .bf16 else none

/-- clause classes (R186). -/
inductive Cls where
  | alu | mem | matrix | async | sys
  deriving DecidableEq, Repr

/-- The code of Cls (clause classes (R186)). -/
def Cls.code : Cls → BitVec 3
  | .alu => 0
  | .mem => 1
  | .matrix => 2
  | .async => 3
  | .sys => 4

/-- The Cls a code names; `none` where the code is illegal. -/
def Cls.ofCode (c : BitVec 3) : Option Cls :=
  if c = 0 then some .alu else if c = 1 then some .mem else if c = 2 then some .matrix else if c = 3 then some .async else if c = 4 then some .sys else none

/-- The address operand of format M: BASE, INDEX and the signed byte OFFSET (R195). -/
structure MAddr where
  base : BitVec 7
  index : Fld
  off : BitVec 16
  deriving DecidableEq, Repr

/-- What a Berwald Link peer asks of this device's memory (R133, R134, R425). -/
inductive PeerAccess where
  /-- a load of `n` bytes at device physical address `d` -/
  | load (d n : Nat)
  /-- a store of bytes at device physical address `d` -/
  | store (d : Nat) (bytes : List (BitVec 8))
  /-- an atomic of `n` bytes at `d` with operand `v` -/
  | atomic (op : AtomOp) (d n : Nat) (v : BitVec 64)
  /-- a compare and swap of `n` bytes at `d` -/
  | cas (d n : Nat) (cmp v : BitVec 64)
  /-- a FATOM update at `d` -/
  | fatom (op : FatOp) (fmt : FatFmt) (d : Nat) (v : BitVec 32)
  deriving DecidableEq, Repr

/-- One constructor per row of the opcode table: the 158 instructions (R200) with their operand
fields, then the 106 events of the part with what the environment chooses in each. -/
inductive Instr where
  | bra (g : Guard) (cnd : BitVec 4) (tgt : BitVec 24) (rcv : BitVec 15)
  | brc (g : Guard) (cond : BrcCond) (cnd : BitVec 7) (tgt : BitVec 24)
  | br4 (g : Guard) (kind : BitVec 2) (p0 : BitVec 4) (t0 : BitVec 24) (rcv : BitVec 15) (p1 : BitVec 4) (t1 : BitVec 16) (p2 : BitVec 4) (t2 : BitVec 16) (p3 : BitVec 4) (t3 : BitVec 16)
  | switch (g : Guard) (val : Fld) (ncase : BitVec 3) (kb : BitVec 16) (rcv : BitVec 15) (toff : BitVec 64)
  | call (g : Guard) (tgt : BitVec 24)
  | callReg (g : Guard) (sc : BitVec 7)
  | ret (g : Guard)
  | exit (g : Guard)
  | nop (g : Guard)
  | yield (g : Guard)
  | slpt (g : Guard) (a : Fld)
  | waitk (g : Guard) (k : KCls) (n : BitVec 6)
  | trap (g : Guard) (imm : BitVec 32)
  | gset (g : Guard) (neg : Bool) (u : Bool) (d : Fld) (a : Fld)
  | region (g : Guard)
  | dsync (g : Guard)
  | srd (g : Guard) (d : Fld) (num : BitVec 8)
  | swr (g : Guard) (num : BitVec 8) (a : Fld)
  | rft (g : Guard)
  | psrd (g : Guard) (d : Fld) (num : BitVec 8)
  | pswr (g : Guard) (num : BitVec 8) (a : Fld)
  | halt (g : Guard)
  | snap (g : Guard)
  | prft (g : Guard)
  | sadd (g : Guard) (ty : IntTy) (sat : Bool) (d : Fld) (a : Fld) (b : Fld)
  | ssub (g : Guard) (ty : IntTy) (sat : Bool) (d : Fld) (a : Fld) (b : Fld)
  | smul (g : Guard) (ty : IntTy) (sat : Bool) (d : Fld) (a : Fld) (b : Fld)
  | smulh (g : Guard) (ty : IntTy) (d : Fld) (a : Fld) (b : Fld)
  | smad (g : Guard) (ty : IntTy) (sat : Bool) (d : Fld) (a : Fld) (b : Fld) (c : Fld)
  | sand (g : Guard) (ty : IntTy) (d : Fld) (a : Fld) (b : Fld)
  | sor (g : Guard) (ty : IntTy) (d : Fld) (a : Fld) (b : Fld)
  | sxor (g : Guard) (ty : IntTy) (d : Fld) (a : Fld) (b : Fld)
  | sshl (g : Guard) (ty : IntTy) (d : Fld) (a : Fld) (b : Fld)
  | sshr (g : Guard) (ty : IntTy) (d : Fld) (a : Fld) (b : Fld)
  | ssar (g : Guard) (ty : IntTy) (d : Fld) (a : Fld) (b : Fld)
  | smin (g : Guard) (ty : IntTy) (d : Fld) (a : Fld) (b : Fld)
  | smax (g : Guard) (ty : IntTy) (d : Fld) (a : Fld) (b : Fld)
  | scmp (g : Guard) (ty : IntTy) (rel : Rel) (d : Fld) (a : Fld) (b : Fld)
  | ssel (g : Guard) (ty : IntTy) (d : Fld) (a : Fld) (b : Fld) (c : Fld)
  | smov (g : Guard) (ty : IntTy) (d : Fld) (a : Fld)
  | smovi (g : Guard) (d : Fld) (imm : BitVec 32)
  | smovh (g : Guard) (d : Fld) (a : Fld) (imm : BitVec 32)
  | spop (g : Guard) (ty : IntTy) (d : Fld) (a : Fld)
  | sclz (g : Guard) (ty : IntTy) (d : Fld) (a : Fld)
  | sbfe (g : Guard) (ty : IntTy) (d : Fld) (a : Fld) (b : Fld)
  | sbfi (g : Guard) (ty : IntTy) (d : Fld) (a : Fld) (b : Fld) (c : Fld)
  | sld (g : Guard) (sx : Bool) (wd : Width) (pol : Policy) (d : Fld) (m : MAddr)
  | sst (g : Guard) (wd : Width) (pol : Policy) (d : Fld) (m : MAddr)
  | pset (g : Guard) (d : Fld) (a : Fld)
  | pand (g : Guard) (na : Bool) (nb : Bool) (d : Fld) (a : Fld) (b : Fld)
  | por (g : Guard) (na : Bool) (nb : Bool) (d : Fld) (a : Fld) (b : Fld)
  | pxor (g : Guard) (na : Bool) (nb : Bool) (d : Fld) (a : Fld) (b : Fld)
  | pnot (g : Guard) (d : Fld) (a : Fld)
  | pmov (g : Guard) (na : Bool) (d : Fld) (a : Fld)
  | pany (g : Guard) (na : Bool) (d : Fld) (a : Fld)
  | qcmp (g : Guard) (rel : QRel) (lin : BitVec 3) (d : Fld) (a : Fld) (b : Fld)
  | qand (g : Guard) (rule : QRule) (d : Fld) (a : Fld) (b : Fld)
  | qor (g : Guard) (rule : QRule) (d : Fld) (a : Fld) (b : Fld)
  | qnot (g : Guard) (d : Fld) (a : Fld)
  | qblend (g : Guard) (d : Fld) (a : Fld) (b : Fld) (c : Fld)
  | qdraw (g : Guard) (stream : BitVec 8) (d : Fld) (a : Fld)
  | qgrad (g : Guard) (d : Fld) (a : Fld)
  | qmov (g : Guard) (dir : QDir) (d : Fld) (a : Fld)
  | qlin (g : Guard) (op : LinOp) (mask : BitVec 8) (d : Fld) (a : Fld)
  | vadd (g : Guard) (ty : IntTy) (sat : Bool) (d : Fld) (a : Fld) (b : Fld)
  | vsub (g : Guard) (ty : IntTy) (sat : Bool) (d : Fld) (a : Fld) (b : Fld)
  | vmul (g : Guard) (ty : IntTy) (sat : Bool) (d : Fld) (a : Fld) (b : Fld)
  | vmulh (g : Guard) (ty : IntTy) (d : Fld) (a : Fld) (b : Fld)
  | vmad (g : Guard) (ty : IntTy) (sat : Bool) (d : Fld) (a : Fld) (b : Fld) (c : Fld)
  | vand (g : Guard) (ty : IntTy) (d : Fld) (a : Fld) (b : Fld)
  | vor (g : Guard) (ty : IntTy) (d : Fld) (a : Fld) (b : Fld)
  | vxor (g : Guard) (ty : IntTy) (d : Fld) (a : Fld) (b : Fld)
  | vnot (g : Guard) (ty : IntTy) (d : Fld) (a : Fld)
  | vshl (g : Guard) (ty : IntTy) (d : Fld) (a : Fld) (b : Fld)
  | vshr (g : Guard) (ty : IntTy) (d : Fld) (a : Fld) (b : Fld)
  | vsar (g : Guard) (ty : IntTy) (d : Fld) (a : Fld) (b : Fld)
  | vmin (g : Guard) (ty : IntTy) (d : Fld) (a : Fld) (b : Fld)
  | vmax (g : Guard) (ty : IntTy) (d : Fld) (a : Fld) (b : Fld)
  | vabs (g : Guard) (ty : IntTy) (sat : Bool) (d : Fld) (a : Fld)
  | vcmp (g : Guard) (ty : IntTy) (rel : Rel) (d : Fld) (a : Fld) (b : Fld)
  | vsel (g : Guard) (ty : IntTy) (nc : Bool) (d : Fld) (a : Fld) (b : Fld) (c : Fld)
  | vmov (g : Guard) (ty : IntTy) (d : Fld) (a : Fld)
  | vmovi (g : Guard) (d : Fld) (imm : BitVec 32)
  | vpop (g : Guard) (ty : IntTy) (d : Fld) (a : Fld)
  | vclz (g : Guard) (ty : IntTy) (d : Fld) (a : Fld)
  | vbfe (g : Guard) (ty : IntTy) (d : Fld) (a : Fld) (b : Fld)
  | vbfi (g : Guard) (ty : IntTy) (d : Fld) (a : Fld) (b : Fld) (c : Fld)
  | fadd (g : Guard) (rnd : Rnd) (sat : Bool) (stream : BitVec 8) (d : Fld) (a : Fld) (b : Fld)
  | fsub (g : Guard) (rnd : Rnd) (sat : Bool) (stream : BitVec 8) (d : Fld) (a : Fld) (b : Fld)
  | fmul (g : Guard) (rnd : Rnd) (sat : Bool) (stream : BitVec 8) (d : Fld) (a : Fld) (b : Fld)
  | ffma (g : Guard) (rnd : Rnd) (sat : Bool) (stream : BitVec 8) (d : Fld) (a : Fld) (b : Fld) (c : Fld)
  | fmin (g : Guard) (d : Fld) (a : Fld) (b : Fld)
  | fmax (g : Guard) (d : Fld) (a : Fld) (b : Fld)
  | fcmp (g : Guard) (rel : QRel) (d : Fld) (a : Fld) (b : Fld)
  | frcp (g : Guard) (d : Fld) (a : Fld)
  | frsq (g : Guard) (d : Fld) (a : Fld)
  | fsqrt (g : Guard) (d : Fld) (a : Fld)
  | fexp2 (g : Guard) (d : Fld) (a : Fld)
  | flog2 (g : Guard) (d : Fld) (a : Fld)
  | frnd (g : Guard) (rnd : Rnd) (d : Fld) (a : Fld)
  | fclass (g : Guard) (d : Fld) (a : Fld)
  | hfma2 (g : Guard) (rnd : Rnd) (sat : Bool) (stream : BitVec 8) (fmt : HFmt) (d : Fld) (a : Fld) (b : Fld) (c : Fld)
  | cvt (g : Guard) (rnd : Rnd) (sat : Bool) (stream : BitVec 8) (df : CFmt) (sf : CFmt) (spos : BitVec 3) (d : Fld) (a : Fld)
  | cvtpk (g : Guard) (rnd : Rnd) (sat : Bool) (stream : BitVec 8) (df : CFmt) (sf : CFmt) (d : Fld) (a : Fld)
  | cvtmx (g : Guard) (rnd : Rnd) (stream : BitVec 8) (df : MxFmt) (sb : BitVec 2) (d : Fld) (a : Fld) (c : Fld)
  | cvtl6 (g : Guard) (rnd : Rnd) (stream : BitVec 8) (b16 : Bool) (sb : BitVec 2) (d : Fld) (a : Fld) (c : Fld)
  | vshf (g : Guard) (mode : ShMode) (d : Fld) (a : Fld) (b : Fld)
  | vbcst (g : Guard) (d : Fld) (a : Fld) (b : Fld)
  | vred (g : Guard) (ty : RedTy) (op : RedOp) (team : Bool) (d : Fld) (a : Fld)
  | vscan (g : Guard) (ty : RedTy) (op : RedOp) (team : Bool) (excl : Bool) (d : Fld) (a : Fld)
  | vbal (g : Guard) (team : Bool) (mode : BalMode) (d : Fld) (a : Fld)
  | vrdl (g : Guard) (d : Fld) (a : Fld) (b : Fld)
  | vwrl (g : Guard) (d : Fld) (a : Fld) (b : Fld)
  | ld (g : Guard) (sx : Bool) (wd : Width) (pol : Policy) (d : Fld) (m : MAddr)
  | st (g : Guard) (bt : Bool) (wd : Width) (pol : Policy) (d : Fld) (m : MAddr)
  | lds (g : Guard) (wd : Width) (d : Fld) (m : MAddr)
  | sts (g : Guard) (bt : Bool) (wd : Width) (d : Fld) (m : MAddr)
  | atom (g : Guard) (op : AtomOp) (wd : Width) (d : Fld) (m : MAddr)
  | acas (g : Guard) (wd : Width) (d : Fld) (m : MAddr)
  | fatom (g : Guard) (op : FatOp) (fmt : FatFmt) (d : Fld) (m : MAddr)
  | acq (g : Guard)
  | rel (g : Guard)
  | cmo (g : Guard) (form : CmoForm) (lvl : CmoLevel) (d : Fld) (m : MAddr)
  | cmoBmp (g : Guard) (lvl : CmoLevel) (d : Fld) (m : MAddr)
  | pref (g : Guard) (l2 : Bool) (m : MAddr)
  | gdld (g : Guard) (d : Fld) (m : MAddr)
  | ild (g : Guard) (ord : OrdSel) (d : Fld) (a : Fld) (b : Fld)
  | ildg (g : Guard) (ord : OrdSel) (d : Fld) (a : Fld) (b : Fld)
  | ispl (g : Guard) (ord : OrdSel) (a : Fld) (b : Fld) (c : Fld)
  | hins (g : Guard) (d : Fld) (a : Fld) (b : Fld) (c : Fld)
  | hfind (g : Guard) (d : Fld) (a : Fld) (b : Fld)
  | nbr (g : Guard) (d : Fld) (a : Fld) (b : Fld)
  | hframe (g : Guard) (d : Fld) (b : Fld)
  | cpy (g : Guard) (out : Bool) (late : Bool) (gen : Bool) (gslot : BitVec 3) (bar : BitVec 4) (zs : BitVec 7) (org : Fld) (ext : Fld) (d : Fld) (m : MAddr)
  | cpyr (g : Guard) (fmt : RFmt) (late : Bool) (gen : Bool) (gslot : BitVec 3) (bar : BitVec 4) (zs : BitVec 7) (org : Fld) (ext : Fld) (d : Fld) (m : MAddr)
  | binit (g : Guard) (d : Fld) (imm : BitVec 32)
  | barr (g : Guard) (a : Fld)
  | bwait (g : Guard) (a : Fld)
  | btest (g : Guard) (d : Fld) (a : Fld)
  | bjoin (g : Guard) (a : Fld)
  | bleave (g : Guard) (a : Fld)
  | mma (g : Guard) (bsrc : Bool) (orda : Bool) (ordb : Bool) (d : Fld) (a : Fld) (za : BitVec 19) (pa : BitVec 12) (zb : BitVec 20) (pb : BitVec 12)
  | mzero (g : Guard) (d : Fld)
  | mlda (g : Guard) (bt : Bool) (pol : Policy) (d : Fld) (m : MAddr)
  | msta (g : Guard) (bf : Bool) (bt : Bool) (pol : Policy) (tile : BitVec 3) (d : Fld) (m : MAddr)
  | wbld (g : Guard) (d : Fld) (m : MAddr)
  | msec (g : Guard) (tgt : BitVec 24)
  | mend (g : Guard)
  | xprog (g : Guard) (d : Fld) (m : MAddr)
  | xmv (g : Guard) (d : Fld) (a : Fld) (b : Fld)
  | xcal (g : Guard) (d : Fld) (b : Fld)
  | xref (g : Guard) (d : Fld) (a : Fld) (b : Fld)
  | accept (g : Guard) (d : Fld) (a : Fld)
  | tbind (g : Guard) (n16 : Bool) (slot : BitVec 4) (d : Fld) (m : MAddr)
  | tq (g : Guard) (win : BitVec 2) (d : Fld) (a : Fld) (b : Fld)
  | tqm (g : Guard) (win : BitVec 2) (d : Fld) (a : Fld) (b : Fld) (c : Fld)
  | nlaunch (g : Guard) (ben : Bool) (gen : Bool) (bar : BitVec 4) (gslot : BitVec 3) (m : MAddr)
  | post (g : Guard) (d : Fld) (m : MAddr)
  | clauseHeader (p : Nat) (slot : Nat)
  | rotationBlockTimeout (p : Nat) (slot : Nat)
  | forcedIssue (p : Nat)
  | promiseCheck (op : Nat)
  | slptWake (p : Nat) (slot : Nat)
  | loadDataReturn (op : Nat) (evict : List Nat)
  | storeRegister (op : Nat) (word : Nat) (evict : List Nat)
  | atomicPerform (op : Nat) (lane : Nat)
  | mshrGrant (p : Nat) (slot : Nat)
  | mshrAgeHold (core : Nat)
  | cmoComplete (op : Nat)
  | gdldDataArrival (op : Nat)
  | splatAddArrival (op : Nat) (k : Nat)
  | hinsBucketStep (op : Nat) (lane : Nat)
  | hframeApply (op : Nat)
  | copyIssueProbe (p : Nat) (slot : Nat)
  | copyComplete (op : Nat)
  | guardSlotRead (op : Nat)
  | cpyrPartApply (op : Nat) (region : Nat)
  | matrixPassGrant (engine : Nat)
  | matrixEntryAged (op : Nat)
  | mmaComplete (op : Nat)
  | tileRowComplete (op : Nat)
  | wbldComplete (op : Nat)
  | xprogDone (op : Nat)
  | xmvPassDone (op : Nat)
  | xcalDone (op : Nat)
  | xrefDone (op : Nat)
  | tbindCopyDone (op : Nat)
  | tqDone (op : Nat)
  | detSyncEffect (p : Nat) (slot : Nat)
  | qtailWrite (q : Nat) (v : BitVec 64)
  | commandNop (q : Nat)
  | commandLaunch (q : Nat)
  | commandReplay (q : Nat)
  | queueStarvationTimeout (q : Nat)
  | windowFreeAdmit (launch : Nat)
  | blockPlace (launch : Nat) (core : Nat)
  | caravanPlace (launch : Nat) (cores : List Nat)
  | blockWaitTimeout (launch : Nat) (cores : List Nat)
  | caravanWaitTimeout (launch : Nat) (cores : List Nat)
  | nodeKernel (replay : Nat) (node : Nat)
  | nodeCellar (replay : Nat) (node : Nat)
  | nodeCopy (replay : Nat) (node : Nat)
  | nodeHostwait (replay : Nat) (node : Nat)
  | nodeCond (replay : Nat) (node : Nat)
  | nodeEvent (replay : Nat) (node : Nat)
  | nodeComplete (replay : Nat) (node : Nat)
  | rheadWrite (r : Nat) (v : BitVec 64)
  | eventRecordWrite (r : Nat)
  | ringCoalesceTimeout (r : Nat)
  | pctlPreWrite (part : Nat)
  | partitionHalted (part : Nat)
  | shadowSaveDone (part : Nat)
  | drainDone (part : Nat)
  | pctlResumeWrite (part : Nat)
  | restoreDone (part : Nat)
  | shadowwaysWrite (v : BitVec 64)
  | cmapWrite (v : BitVec 64)
  | xlstatRfailClear (part : Nat)
  | registerWrite (off : Nat) (v : BitVec 64)
  | atsTranslationCompletion (pasid : Nat) (page : Nat) (size : Nat) (taddr : Nat) (r : Bool) (w : Bool) (u : Bool)
  | atsCompletionTimeout (pasid : Nat) (page : Nat)
  | prgResponseSuccess (group : Nat)
  | prgResponseInvalidRequest (group : Nat)
  | prgResponseFailure (group : Nat)
  | atsInvalidateRequest (pasid : Nat) (base : Nat) (size : Nat)
  | regionRequeue (p : Nat)
  | hostAtomicopCompletion (op : Nat) (lane : Nat) (ok : Bool)
  | hostFlushReadCompletion (op : Nat)
  | peerAcknowledge (op : Nat)
  | hostBar2Read (d : Nat) (n : Nat)
  | hostBar2Write (d : Nat) (bytes : List (BitVec 8))
  | peerAccessIn (acc : PeerAccess)
  | cellarJobStart (op : Nat)
  | cellarDot (op : Nat)
  | cellarSegsum (op : Nat)
  | cellarAdamw (op : Nat)
  | cellarRapply (op : Nat) (region : Nat)
  | cellarFill (op : Nat)
  | cellarJobComplete (op : Nat)
  | sequenceEntryFree (stack : Nat)
  | plimitWrite (v : BitVec 64)
  | throttleStepDown (stack : Nat)
  | throttleRestore (stack : Nat)
  | hostPeerLoadCompletion (op : Nat)
  | xareleaseWrite (v : BitVec 64)
  | attcmdWrite (v : BitVec 64)
  | linkPortStateChange (port : Nat) (st : Nat)
  | linkFlitReplay (port : Nat)
  | uncorrectableError (word : Nat)
  | clusterFailure (cluster : Nat)
  | cellarUnitFailure (unit : Nat)
  | dramRowFailure (spare : Bool)
  | snaptrigWrite (v : BitVec 64)
  | hardwarePrefetch (core : Option Nat) (pasid : Nat) (va : Nat)
  | pageRequestGroupSend
  | powerOnReset
  | attestationReport
  | correctableError
  | l2WayFailure
  | snapInEdge
  | snapctlFullClear
  | snapOutRelease
  | thermalTrip
  | mergeTableAgeHold
  deriving DecidableEq, Repr

/-- The class of an instruction (R200); `none` is the class "any". -/
def Instr.cls : Instr → Option Cls
  | .bra _ _ _ _ => none
  | .brc _ _ _ _ => none
  | .br4 _ _ _ _ _ _ _ _ _ _ _ => none
  | .switch _ _ _ _ _ _ => none
  | .call _ _ => none
  | .callReg _ _ => none
  | .ret _ => none
  | .exit _ => none
  | .nop _ => none
  | .yield _ => some .sys
  | .slpt _ _ => some .sys
  | .waitk _ _ _ => some .sys
  | .trap _ _ => some .sys
  | .gset _ _ _ _ _ => some .sys
  | .region _ => some .sys
  | .dsync _ => some .sys
  | .srd _ _ _ => some .sys
  | .swr _ _ _ => some .sys
  | .rft _ => some .sys
  | .psrd _ _ _ => some .sys
  | .pswr _ _ _ => some .sys
  | .halt _ => some .sys
  | .snap _ => some .sys
  | .prft _ => some .sys
  | .sadd _ _ _ _ _ _ => some .alu
  | .ssub _ _ _ _ _ _ => some .alu
  | .smul _ _ _ _ _ _ => some .alu
  | .smulh _ _ _ _ _ => some .alu
  | .smad _ _ _ _ _ _ _ => some .alu
  | .sand _ _ _ _ _ => some .alu
  | .sor _ _ _ _ _ => some .alu
  | .sxor _ _ _ _ _ => some .alu
  | .sshl _ _ _ _ _ => some .alu
  | .sshr _ _ _ _ _ => some .alu
  | .ssar _ _ _ _ _ => some .alu
  | .smin _ _ _ _ _ => some .alu
  | .smax _ _ _ _ _ => some .alu
  | .scmp _ _ _ _ _ _ => some .alu
  | .ssel _ _ _ _ _ _ => some .alu
  | .smov _ _ _ _ => some .alu
  | .smovi _ _ _ => some .alu
  | .smovh _ _ _ _ => some .alu
  | .spop _ _ _ _ => some .alu
  | .sclz _ _ _ _ => some .alu
  | .sbfe _ _ _ _ _ => some .alu
  | .sbfi _ _ _ _ _ _ => some .alu
  | .sld _ _ _ _ _ _ => some .mem
  | .sst _ _ _ _ _ => some .mem
  | .pset _ _ _ => some .alu
  | .pand _ _ _ _ _ _ => some .alu
  | .por _ _ _ _ _ _ => some .alu
  | .pxor _ _ _ _ _ _ => some .alu
  | .pnot _ _ _ => some .alu
  | .pmov _ _ _ _ => some .alu
  | .pany _ _ _ _ => some .alu
  | .qcmp _ _ _ _ _ _ => some .alu
  | .qand _ _ _ _ _ => some .alu
  | .qor _ _ _ _ _ => some .alu
  | .qnot _ _ _ => some .alu
  | .qblend _ _ _ _ _ => some .alu
  | .qdraw _ _ _ _ => some .alu
  | .qgrad _ _ _ => some .alu
  | .qmov _ _ _ _ => some .alu
  | .qlin _ _ _ _ _ => some .alu
  | .vadd _ _ _ _ _ _ => some .alu
  | .vsub _ _ _ _ _ _ => some .alu
  | .vmul _ _ _ _ _ _ => some .alu
  | .vmulh _ _ _ _ _ => some .alu
  | .vmad _ _ _ _ _ _ _ => some .alu
  | .vand _ _ _ _ _ => some .alu
  | .vor _ _ _ _ _ => some .alu
  | .vxor _ _ _ _ _ => some .alu
  | .vnot _ _ _ _ => some .alu
  | .vshl _ _ _ _ _ => some .alu
  | .vshr _ _ _ _ _ => some .alu
  | .vsar _ _ _ _ _ => some .alu
  | .vmin _ _ _ _ _ => some .alu
  | .vmax _ _ _ _ _ => some .alu
  | .vabs _ _ _ _ _ => some .alu
  | .vcmp _ _ _ _ _ _ => some .alu
  | .vsel _ _ _ _ _ _ _ => some .alu
  | .vmov _ _ _ _ => some .alu
  | .vmovi _ _ _ => some .alu
  | .vpop _ _ _ _ => some .alu
  | .vclz _ _ _ _ => some .alu
  | .vbfe _ _ _ _ _ => some .alu
  | .vbfi _ _ _ _ _ _ => some .alu
  | .fadd _ _ _ _ _ _ _ => some .alu
  | .fsub _ _ _ _ _ _ _ => some .alu
  | .fmul _ _ _ _ _ _ _ => some .alu
  | .ffma _ _ _ _ _ _ _ _ => some .alu
  | .fmin _ _ _ _ => some .alu
  | .fmax _ _ _ _ => some .alu
  | .fcmp _ _ _ _ _ => some .alu
  | .frcp _ _ _ => some .alu
  | .frsq _ _ _ => some .alu
  | .fsqrt _ _ _ => some .alu
  | .fexp2 _ _ _ => some .alu
  | .flog2 _ _ _ => some .alu
  | .frnd _ _ _ _ => some .alu
  | .fclass _ _ _ => some .alu
  | .hfma2 _ _ _ _ _ _ _ _ _ => some .alu
  | .cvt _ _ _ _ _ _ _ _ _ => some .alu
  | .cvtpk _ _ _ _ _ _ _ _ => some .alu
  | .cvtmx _ _ _ _ _ _ _ _ => some .alu
  | .cvtl6 _ _ _ _ _ _ _ _ => some .alu
  | .vshf _ _ _ _ _ => some .alu
  | .vbcst _ _ _ _ => some .alu
  | .vred _ _ _ _ _ _ => some .alu
  | .vscan _ _ _ _ _ _ _ => some .alu
  | .vbal _ _ _ _ _ => some .alu
  | .vrdl _ _ _ _ => some .alu
  | .vwrl _ _ _ _ => some .alu
  | .ld _ _ _ _ _ _ => some .mem
  | .st _ _ _ _ _ _ => some .mem
  | .lds _ _ _ _ => some .mem
  | .sts _ _ _ _ _ => some .mem
  | .atom _ _ _ _ _ => some .mem
  | .acas _ _ _ _ => some .mem
  | .fatom _ _ _ _ _ => some .mem
  | .acq _ => some .mem
  | .rel _ => some .mem
  | .cmo _ _ _ _ _ => some .mem
  | .cmoBmp _ _ _ _ => some .mem
  | .pref _ _ _ => some .mem
  | .gdld _ _ _ => some .mem
  | .ild _ _ _ _ _ => some .mem
  | .ildg _ _ _ _ _ => some .mem
  | .ispl _ _ _ _ _ => some .mem
  | .hins _ _ _ _ _ => some .mem
  | .hfind _ _ _ _ => some .mem
  | .nbr _ _ _ _ => some .mem
  | .hframe _ _ _ => some .mem
  | .cpy _ _ _ _ _ _ _ _ _ _ _ => some .async
  | .cpyr _ _ _ _ _ _ _ _ _ _ _ => some .async
  | .binit _ _ _ => some .async
  | .barr _ _ => some .async
  | .bwait _ _ => some .async
  | .btest _ _ _ => some .async
  | .bjoin _ _ => some .async
  | .bleave _ _ => some .async
  | .mma _ _ _ _ _ _ _ _ _ _ => some .matrix
  | .mzero _ _ => some .matrix
  | .mlda _ _ _ _ _ => some .matrix
  | .msta _ _ _ _ _ _ _ => some .matrix
  | .wbld _ _ _ => some .matrix
  | .msec _ _ => some .matrix
  | .mend _ => some .matrix
  | .xprog _ _ _ => some .async
  | .xmv _ _ _ _ => some .async
  | .xcal _ _ _ => some .async
  | .xref _ _ _ _ => some .async
  | .accept _ _ _ => some .alu
  | .tbind _ _ _ _ _ => some .async
  | .tq _ _ _ _ _ => some .async
  | .tqm _ _ _ _ _ _ => some .async
  | .nlaunch _ _ _ _ _ _ => some .async
  | .post _ _ _ => some .async
  | .clauseHeader _ _ => none
  | .rotationBlockTimeout _ _ => none
  | .forcedIssue _ => none
  | .promiseCheck _ => none
  | .slptWake _ _ => none
  | .loadDataReturn _ _ => none
  | .storeRegister _ _ _ => none
  | .atomicPerform _ _ => none
  | .mshrGrant _ _ => none
  | .mshrAgeHold _ => none
  | .cmoComplete _ => none
  | .gdldDataArrival _ => none
  | .splatAddArrival _ _ => none
  | .hinsBucketStep _ _ => none
  | .hframeApply _ => none
  | .copyIssueProbe _ _ => none
  | .copyComplete _ => none
  | .guardSlotRead _ => none
  | .cpyrPartApply _ _ => none
  | .matrixPassGrant _ => none
  | .matrixEntryAged _ => none
  | .mmaComplete _ => none
  | .tileRowComplete _ => none
  | .wbldComplete _ => none
  | .xprogDone _ => none
  | .xmvPassDone _ => none
  | .xcalDone _ => none
  | .xrefDone _ => none
  | .tbindCopyDone _ => none
  | .tqDone _ => none
  | .detSyncEffect _ _ => none
  | .qtailWrite _ _ => none
  | .commandNop _ => none
  | .commandLaunch _ => none
  | .commandReplay _ => none
  | .queueStarvationTimeout _ => none
  | .windowFreeAdmit _ => none
  | .blockPlace _ _ => none
  | .caravanPlace _ _ => none
  | .blockWaitTimeout _ _ => none
  | .caravanWaitTimeout _ _ => none
  | .nodeKernel _ _ => none
  | .nodeCellar _ _ => none
  | .nodeCopy _ _ => none
  | .nodeHostwait _ _ => none
  | .nodeCond _ _ => none
  | .nodeEvent _ _ => none
  | .nodeComplete _ _ => none
  | .rheadWrite _ _ => none
  | .eventRecordWrite _ => none
  | .ringCoalesceTimeout _ => none
  | .pctlPreWrite _ => none
  | .partitionHalted _ => none
  | .shadowSaveDone _ => none
  | .drainDone _ => none
  | .pctlResumeWrite _ => none
  | .restoreDone _ => none
  | .xareleaseWrite _ => none
  | .shadowwaysWrite _ => none
  | .cmapWrite _ => none
  | .xlstatRfailClear _ => none
  | .registerWrite _ _ => none
  | .atsTranslationCompletion _ _ _ _ _ _ _ => none
  | .atsCompletionTimeout _ _ => none
  | .pageRequestGroupSend => none
  | .prgResponseSuccess _ => none
  | .prgResponseInvalidRequest _ => none
  | .prgResponseFailure _ => none
  | .atsInvalidateRequest _ _ _ => none
  | .regionRequeue _ => none
  | .hostAtomicopCompletion _ _ _ => none
  | .hostFlushReadCompletion _ => none
  | .peerAcknowledge _ => none
  | .hostBar2Read _ _ => none
  | .hostBar2Write _ _ => none
  | .peerAccessIn _ => none
  | .cellarJobStart _ => none
  | .cellarDot _ => none
  | .cellarSegsum _ => none
  | .cellarAdamw _ => none
  | .cellarRapply _ _ => none
  | .cellarFill _ => none
  | .cellarJobComplete _ => none
  | .sequenceEntryFree _ => none
  | .powerOnReset => none
  | .attcmdWrite _ => none
  | .attestationReport => none
  | .linkPortStateChange _ _ => none
  | .linkFlitReplay _ => none
  | .uncorrectableError _ => none
  | .correctableError => none
  | .clusterFailure _ => none
  | .cellarUnitFailure _ => none
  | .dramRowFailure _ => none
  | .l2WayFailure => none
  | .snapInEdge => none
  | .snaptrigWrite _ => none
  | .snapctlFullClear => none
  | .snapOutRelease => none
  | .plimitWrite _ => none
  | .throttleStepDown _ => none
  | .throttleRestore _ => none
  | .thermalTrip => none
  | .hardwarePrefetch _ _ _ => none
  | .mergeTableAgeHold => none
  | .hostPeerLoadCompletion _ => none

/-- Marked in the opcode map as ending its clause (R188, R200). -/
def Instr.ends : Instr → Bool
  | .bra _ _ _ _ => true
  | .brc _ _ _ _ => true
  | .br4 _ _ _ _ _ _ _ _ _ _ _ => true
  | .switch _ _ _ _ _ _ => true
  | .call _ _ => true
  | .callReg _ _ => true
  | .ret _ => true
  | .exit _ => true
  | .nop _ => false
  | .yield _ => true
  | .slpt _ _ => false
  | .waitk _ _ _ => false
  | .trap _ _ => true
  | .gset _ _ _ _ _ => false
  | .region _ => false
  | .dsync _ => false
  | .srd _ _ _ => false
  | .swr _ _ _ => false
  | .rft _ => true
  | .psrd _ _ _ => false
  | .pswr _ _ _ => false
  | .halt _ => true
  | .snap _ => false
  | .prft _ => true
  | .sadd _ _ _ _ _ _ => false
  | .ssub _ _ _ _ _ _ => false
  | .smul _ _ _ _ _ _ => false
  | .smulh _ _ _ _ _ => false
  | .smad _ _ _ _ _ _ _ => false
  | .sand _ _ _ _ _ => false
  | .sor _ _ _ _ _ => false
  | .sxor _ _ _ _ _ => false
  | .sshl _ _ _ _ _ => false
  | .sshr _ _ _ _ _ => false
  | .ssar _ _ _ _ _ => false
  | .smin _ _ _ _ _ => false
  | .smax _ _ _ _ _ => false
  | .scmp _ _ _ _ _ _ => false
  | .ssel _ _ _ _ _ _ => false
  | .smov _ _ _ _ => false
  | .smovi _ _ _ => false
  | .smovh _ _ _ _ => false
  | .spop _ _ _ _ => false
  | .sclz _ _ _ _ => false
  | .sbfe _ _ _ _ _ => false
  | .sbfi _ _ _ _ _ _ => false
  | .sld _ _ _ _ _ _ => false
  | .sst _ _ _ _ _ => false
  | .pset _ _ _ => false
  | .pand _ _ _ _ _ _ => false
  | .por _ _ _ _ _ _ => false
  | .pxor _ _ _ _ _ _ => false
  | .pnot _ _ _ => false
  | .pmov _ _ _ _ => false
  | .pany _ _ _ _ => false
  | .qcmp _ _ _ _ _ _ => false
  | .qand _ _ _ _ _ => false
  | .qor _ _ _ _ _ => false
  | .qnot _ _ _ => false
  | .qblend _ _ _ _ _ => false
  | .qdraw _ _ _ _ => false
  | .qgrad _ _ _ => false
  | .qmov _ _ _ _ => false
  | .qlin _ _ _ _ _ => false
  | .vadd _ _ _ _ _ _ => false
  | .vsub _ _ _ _ _ _ => false
  | .vmul _ _ _ _ _ _ => false
  | .vmulh _ _ _ _ _ => false
  | .vmad _ _ _ _ _ _ _ => false
  | .vand _ _ _ _ _ => false
  | .vor _ _ _ _ _ => false
  | .vxor _ _ _ _ _ => false
  | .vnot _ _ _ _ => false
  | .vshl _ _ _ _ _ => false
  | .vshr _ _ _ _ _ => false
  | .vsar _ _ _ _ _ => false
  | .vmin _ _ _ _ _ => false
  | .vmax _ _ _ _ _ => false
  | .vabs _ _ _ _ _ => false
  | .vcmp _ _ _ _ _ _ => false
  | .vsel _ _ _ _ _ _ _ => false
  | .vmov _ _ _ _ => false
  | .vmovi _ _ _ => false
  | .vpop _ _ _ _ => false
  | .vclz _ _ _ _ => false
  | .vbfe _ _ _ _ _ => false
  | .vbfi _ _ _ _ _ _ => false
  | .fadd _ _ _ _ _ _ _ => false
  | .fsub _ _ _ _ _ _ _ => false
  | .fmul _ _ _ _ _ _ _ => false
  | .ffma _ _ _ _ _ _ _ _ => false
  | .fmin _ _ _ _ => false
  | .fmax _ _ _ _ => false
  | .fcmp _ _ _ _ _ => false
  | .frcp _ _ _ => false
  | .frsq _ _ _ => false
  | .fsqrt _ _ _ => false
  | .fexp2 _ _ _ => false
  | .flog2 _ _ _ => false
  | .frnd _ _ _ _ => false
  | .fclass _ _ _ => false
  | .hfma2 _ _ _ _ _ _ _ _ _ => false
  | .cvt _ _ _ _ _ _ _ _ _ => false
  | .cvtpk _ _ _ _ _ _ _ _ => false
  | .cvtmx _ _ _ _ _ _ _ _ => false
  | .cvtl6 _ _ _ _ _ _ _ _ => false
  | .vshf _ _ _ _ _ => false
  | .vbcst _ _ _ _ => false
  | .vred _ _ _ _ _ _ => false
  | .vscan _ _ _ _ _ _ _ => false
  | .vbal _ _ _ _ _ => false
  | .vrdl _ _ _ _ => false
  | .vwrl _ _ _ _ => false
  | .ld _ _ _ _ _ _ => false
  | .st _ _ _ _ _ _ => false
  | .lds _ _ _ _ => false
  | .sts _ _ _ _ _ => false
  | .atom _ _ _ _ _ => false
  | .acas _ _ _ _ => false
  | .fatom _ _ _ _ _ => false
  | .acq _ => false
  | .rel _ => false
  | .cmo _ _ _ _ _ => false
  | .cmoBmp _ _ _ _ => false
  | .pref _ _ _ => false
  | .gdld _ _ _ => false
  | .ild _ _ _ _ _ => false
  | .ildg _ _ _ _ _ => false
  | .ispl _ _ _ _ _ => false
  | .hins _ _ _ _ _ => false
  | .hfind _ _ _ _ => false
  | .nbr _ _ _ _ => false
  | .hframe _ _ _ => false
  | .cpy _ _ _ _ _ _ _ _ _ _ _ => false
  | .cpyr _ _ _ _ _ _ _ _ _ _ _ => false
  | .binit _ _ _ => false
  | .barr _ _ => false
  | .bwait _ _ => false
  | .btest _ _ _ => false
  | .bjoin _ _ => false
  | .bleave _ _ => false
  | .mma _ _ _ _ _ _ _ _ _ _ => false
  | .mzero _ _ => false
  | .mlda _ _ _ _ _ => false
  | .msta _ _ _ _ _ _ _ => false
  | .wbld _ _ _ => false
  | .msec _ _ => false
  | .mend _ => false
  | .xprog _ _ _ => false
  | .xmv _ _ _ _ => false
  | .xcal _ _ _ => false
  | .xref _ _ _ _ => false
  | .accept _ _ _ => false
  | .tbind _ _ _ _ _ => false
  | .tq _ _ _ _ _ => false
  | .tqm _ _ _ _ _ _ => false
  | .nlaunch _ _ _ _ _ _ => false
  | .post _ _ _ => false
  | .clauseHeader _ _ => false
  | .rotationBlockTimeout _ _ => false
  | .forcedIssue _ => false
  | .promiseCheck _ => false
  | .slptWake _ _ => false
  | .loadDataReturn _ _ => false
  | .storeRegister _ _ _ => false
  | .atomicPerform _ _ => false
  | .mshrGrant _ _ => false
  | .mshrAgeHold _ => false
  | .cmoComplete _ => false
  | .gdldDataArrival _ => false
  | .splatAddArrival _ _ => false
  | .hinsBucketStep _ _ => false
  | .hframeApply _ => false
  | .copyIssueProbe _ _ => false
  | .copyComplete _ => false
  | .guardSlotRead _ => false
  | .cpyrPartApply _ _ => false
  | .matrixPassGrant _ => false
  | .matrixEntryAged _ => false
  | .mmaComplete _ => false
  | .tileRowComplete _ => false
  | .wbldComplete _ => false
  | .xprogDone _ => false
  | .xmvPassDone _ => false
  | .xcalDone _ => false
  | .xrefDone _ => false
  | .tbindCopyDone _ => false
  | .tqDone _ => false
  | .detSyncEffect _ _ => false
  | .qtailWrite _ _ => false
  | .commandNop _ => false
  | .commandLaunch _ => false
  | .commandReplay _ => false
  | .queueStarvationTimeout _ => false
  | .windowFreeAdmit _ => false
  | .blockPlace _ _ => false
  | .caravanPlace _ _ => false
  | .blockWaitTimeout _ _ => false
  | .caravanWaitTimeout _ _ => false
  | .nodeKernel _ _ => false
  | .nodeCellar _ _ => false
  | .nodeCopy _ _ => false
  | .nodeHostwait _ _ => false
  | .nodeCond _ _ => false
  | .nodeEvent _ _ => false
  | .nodeComplete _ _ => false
  | .rheadWrite _ _ => false
  | .eventRecordWrite _ => false
  | .ringCoalesceTimeout _ => false
  | .pctlPreWrite _ => false
  | .partitionHalted _ => false
  | .shadowSaveDone _ => false
  | .drainDone _ => false
  | .pctlResumeWrite _ => false
  | .restoreDone _ => false
  | .xareleaseWrite _ => false
  | .shadowwaysWrite _ => false
  | .cmapWrite _ => false
  | .xlstatRfailClear _ => false
  | .registerWrite _ _ => false
  | .atsTranslationCompletion _ _ _ _ _ _ _ => false
  | .atsCompletionTimeout _ _ => false
  | .pageRequestGroupSend => false
  | .prgResponseSuccess _ => false
  | .prgResponseInvalidRequest _ => false
  | .prgResponseFailure _ => false
  | .atsInvalidateRequest _ _ _ => false
  | .regionRequeue _ => false
  | .hostAtomicopCompletion _ _ _ => false
  | .hostFlushReadCompletion _ => false
  | .peerAcknowledge _ => false
  | .hostBar2Read _ _ => false
  | .hostBar2Write _ _ => false
  | .peerAccessIn _ => false
  | .cellarJobStart _ => false
  | .cellarDot _ => false
  | .cellarSegsum _ => false
  | .cellarAdamw _ => false
  | .cellarRapply _ _ => false
  | .cellarFill _ => false
  | .cellarJobComplete _ => false
  | .sequenceEntryFree _ => false
  | .powerOnReset => false
  | .attcmdWrite _ => false
  | .attestationReport => false
  | .linkPortStateChange _ _ => false
  | .linkFlitReplay _ => false
  | .uncorrectableError _ => false
  | .correctableError => false
  | .clusterFailure _ => false
  | .cellarUnitFailure _ => false
  | .dramRowFailure _ => false
  | .l2WayFailure => false
  | .snapInEdge => false
  | .snaptrigWrite _ => false
  | .snapctlFullClear => false
  | .snapOutRelease => false
  | .plimitWrite _ => false
  | .throttleStepDown _ => false
  | .throttleRestore _ => false
  | .thermalTrip => false
  | .hardwarePrefetch _ _ _ => false
  | .mergeTableAgeHold => false
  | .hostPeerLoadCompletion _ => false

/-- How many 64-bit words the instruction takes (R199); an event takes none. -/
def Instr.words : Instr → Nat
  | .bra _ _ _ _ => 1
  | .brc _ _ _ _ => 1
  | .br4 _ _ _ _ _ _ _ _ _ _ _ => 2
  | .switch _ _ _ _ _ _ => 2
  | .call _ _ => 1
  | .callReg _ _ => 1
  | .ret _ => 1
  | .exit _ => 1
  | .nop _ => 1
  | .yield _ => 1
  | .slpt _ _ => 1
  | .waitk _ _ _ => 1
  | .trap _ _ => 1
  | .gset _ _ _ _ _ => 1
  | .region _ => 1
  | .dsync _ => 1
  | .srd _ _ _ => 1
  | .swr _ _ _ => 1
  | .rft _ => 1
  | .psrd _ _ _ => 1
  | .pswr _ _ _ => 1
  | .halt _ => 1
  | .snap _ => 1
  | .prft _ => 1
  | .sadd _ _ _ _ _ _ => 1
  | .ssub _ _ _ _ _ _ => 1
  | .smul _ _ _ _ _ _ => 1
  | .smulh _ _ _ _ _ => 1
  | .smad _ _ _ _ _ _ _ => 1
  | .sand _ _ _ _ _ => 1
  | .sor _ _ _ _ _ => 1
  | .sxor _ _ _ _ _ => 1
  | .sshl _ _ _ _ _ => 1
  | .sshr _ _ _ _ _ => 1
  | .ssar _ _ _ _ _ => 1
  | .smin _ _ _ _ _ => 1
  | .smax _ _ _ _ _ => 1
  | .scmp _ _ _ _ _ _ => 1
  | .ssel _ _ _ _ _ _ => 1
  | .smov _ _ _ _ => 1
  | .smovi _ _ _ => 1
  | .smovh _ _ _ _ => 1
  | .spop _ _ _ _ => 1
  | .sclz _ _ _ _ => 1
  | .sbfe _ _ _ _ _ => 1
  | .sbfi _ _ _ _ _ _ => 1
  | .sld _ _ _ _ _ _ => 1
  | .sst _ _ _ _ _ => 1
  | .pset _ _ _ => 1
  | .pand _ _ _ _ _ _ => 1
  | .por _ _ _ _ _ _ => 1
  | .pxor _ _ _ _ _ _ => 1
  | .pnot _ _ _ => 1
  | .pmov _ _ _ _ => 1
  | .pany _ _ _ _ => 1
  | .qcmp _ _ _ _ _ _ => 1
  | .qand _ _ _ _ _ => 1
  | .qor _ _ _ _ _ => 1
  | .qnot _ _ _ => 1
  | .qblend _ _ _ _ _ => 1
  | .qdraw _ _ _ _ => 1
  | .qgrad _ _ _ => 1
  | .qmov _ _ _ _ => 1
  | .qlin _ _ _ _ _ => 1
  | .vadd _ _ _ _ _ _ => 1
  | .vsub _ _ _ _ _ _ => 1
  | .vmul _ _ _ _ _ _ => 1
  | .vmulh _ _ _ _ _ => 1
  | .vmad _ _ _ _ _ _ _ => 1
  | .vand _ _ _ _ _ => 1
  | .vor _ _ _ _ _ => 1
  | .vxor _ _ _ _ _ => 1
  | .vnot _ _ _ _ => 1
  | .vshl _ _ _ _ _ => 1
  | .vshr _ _ _ _ _ => 1
  | .vsar _ _ _ _ _ => 1
  | .vmin _ _ _ _ _ => 1
  | .vmax _ _ _ _ _ => 1
  | .vabs _ _ _ _ _ => 1
  | .vcmp _ _ _ _ _ _ => 1
  | .vsel _ _ _ _ _ _ _ => 1
  | .vmov _ _ _ _ => 1
  | .vmovi _ _ _ => 1
  | .vpop _ _ _ _ => 1
  | .vclz _ _ _ _ => 1
  | .vbfe _ _ _ _ _ => 1
  | .vbfi _ _ _ _ _ _ => 1
  | .fadd _ _ _ _ _ _ _ => 1
  | .fsub _ _ _ _ _ _ _ => 1
  | .fmul _ _ _ _ _ _ _ => 1
  | .ffma _ _ _ _ _ _ _ _ => 1
  | .fmin _ _ _ _ => 1
  | .fmax _ _ _ _ => 1
  | .fcmp _ _ _ _ _ => 1
  | .frcp _ _ _ => 1
  | .frsq _ _ _ => 1
  | .fsqrt _ _ _ => 1
  | .fexp2 _ _ _ => 1
  | .flog2 _ _ _ => 1
  | .frnd _ _ _ _ => 1
  | .fclass _ _ _ => 1
  | .hfma2 _ _ _ _ _ _ _ _ _ => 1
  | .cvt _ _ _ _ _ _ _ _ _ => 1
  | .cvtpk _ _ _ _ _ _ _ _ => 1
  | .cvtmx _ _ _ _ _ _ _ _ => 1
  | .cvtl6 _ _ _ _ _ _ _ _ => 1
  | .vshf _ _ _ _ _ => 1
  | .vbcst _ _ _ _ => 1
  | .vred _ _ _ _ _ _ => 1
  | .vscan _ _ _ _ _ _ _ => 1
  | .vbal _ _ _ _ _ => 1
  | .vrdl _ _ _ _ => 1
  | .vwrl _ _ _ _ => 1
  | .ld _ _ _ _ _ _ => 1
  | .st _ _ _ _ _ _ => 1
  | .lds _ _ _ _ => 1
  | .sts _ _ _ _ _ => 1
  | .atom _ _ _ _ _ => 1
  | .acas _ _ _ _ => 1
  | .fatom _ _ _ _ _ => 1
  | .acq _ => 1
  | .rel _ => 1
  | .cmo _ _ _ _ _ => 1
  | .cmoBmp _ _ _ _ => 1
  | .pref _ _ _ => 1
  | .gdld _ _ _ => 1
  | .ild _ _ _ _ _ => 1
  | .ildg _ _ _ _ _ => 1
  | .ispl _ _ _ _ _ => 1
  | .hins _ _ _ _ _ => 1
  | .hfind _ _ _ _ => 1
  | .nbr _ _ _ _ => 1
  | .hframe _ _ _ => 1
  | .cpy _ _ _ _ _ _ _ _ _ _ _ => 2
  | .cpyr _ _ _ _ _ _ _ _ _ _ _ => 2
  | .binit _ _ _ => 1
  | .barr _ _ => 1
  | .bwait _ _ => 1
  | .btest _ _ _ => 1
  | .bjoin _ _ => 1
  | .bleave _ _ => 1
  | .mma _ _ _ _ _ _ _ _ _ _ => 2
  | .mzero _ _ => 1
  | .mlda _ _ _ _ _ => 1
  | .msta _ _ _ _ _ _ _ => 1
  | .wbld _ _ _ => 1
  | .msec _ _ => 1
  | .mend _ => 1
  | .xprog _ _ _ => 1
  | .xmv _ _ _ _ => 1
  | .xcal _ _ _ => 1
  | .xref _ _ _ _ => 1
  | .accept _ _ _ => 1
  | .tbind _ _ _ _ _ => 1
  | .tq _ _ _ _ _ => 1
  | .tqm _ _ _ _ _ _ => 1
  | .nlaunch _ _ _ _ _ _ => 2
  | .post _ _ _ => 1
  | .clauseHeader _ _ => 0
  | .rotationBlockTimeout _ _ => 0
  | .forcedIssue _ => 0
  | .promiseCheck _ => 0
  | .slptWake _ _ => 0
  | .loadDataReturn _ _ => 0
  | .storeRegister _ _ _ => 0
  | .atomicPerform _ _ => 0
  | .mshrGrant _ _ => 0
  | .mshrAgeHold _ => 0
  | .cmoComplete _ => 0
  | .gdldDataArrival _ => 0
  | .splatAddArrival _ _ => 0
  | .hinsBucketStep _ _ => 0
  | .hframeApply _ => 0
  | .copyIssueProbe _ _ => 0
  | .copyComplete _ => 0
  | .guardSlotRead _ => 0
  | .cpyrPartApply _ _ => 0
  | .matrixPassGrant _ => 0
  | .matrixEntryAged _ => 0
  | .mmaComplete _ => 0
  | .tileRowComplete _ => 0
  | .wbldComplete _ => 0
  | .xprogDone _ => 0
  | .xmvPassDone _ => 0
  | .xcalDone _ => 0
  | .xrefDone _ => 0
  | .tbindCopyDone _ => 0
  | .tqDone _ => 0
  | .detSyncEffect _ _ => 0
  | .qtailWrite _ _ => 0
  | .commandNop _ => 0
  | .commandLaunch _ => 0
  | .commandReplay _ => 0
  | .queueStarvationTimeout _ => 0
  | .windowFreeAdmit _ => 0
  | .blockPlace _ _ => 0
  | .caravanPlace _ _ => 0
  | .blockWaitTimeout _ _ => 0
  | .caravanWaitTimeout _ _ => 0
  | .nodeKernel _ _ => 0
  | .nodeCellar _ _ => 0
  | .nodeCopy _ _ => 0
  | .nodeHostwait _ _ => 0
  | .nodeCond _ _ => 0
  | .nodeEvent _ _ => 0
  | .nodeComplete _ _ => 0
  | .rheadWrite _ _ => 0
  | .eventRecordWrite _ => 0
  | .ringCoalesceTimeout _ => 0
  | .pctlPreWrite _ => 0
  | .partitionHalted _ => 0
  | .shadowSaveDone _ => 0
  | .drainDone _ => 0
  | .pctlResumeWrite _ => 0
  | .restoreDone _ => 0
  | .xareleaseWrite _ => 0
  | .shadowwaysWrite _ => 0
  | .cmapWrite _ => 0
  | .xlstatRfailClear _ => 0
  | .registerWrite _ _ => 0
  | .atsTranslationCompletion _ _ _ _ _ _ _ => 0
  | .atsCompletionTimeout _ _ => 0
  | .pageRequestGroupSend => 0
  | .prgResponseSuccess _ => 0
  | .prgResponseInvalidRequest _ => 0
  | .prgResponseFailure _ => 0
  | .atsInvalidateRequest _ _ _ => 0
  | .regionRequeue _ => 0
  | .hostAtomicopCompletion _ _ _ => 0
  | .hostFlushReadCompletion _ => 0
  | .peerAcknowledge _ => 0
  | .hostBar2Read _ _ => 0
  | .hostBar2Write _ _ => 0
  | .peerAccessIn _ => 0
  | .cellarJobStart _ => 0
  | .cellarDot _ => 0
  | .cellarSegsum _ => 0
  | .cellarAdamw _ => 0
  | .cellarRapply _ _ => 0
  | .cellarFill _ => 0
  | .cellarJobComplete _ => 0
  | .sequenceEntryFree _ => 0
  | .powerOnReset => 0
  | .attcmdWrite _ => 0
  | .attestationReport => 0
  | .linkPortStateChange _ _ => 0
  | .linkFlitReplay _ => 0
  | .uncorrectableError _ => 0
  | .correctableError => 0
  | .clusterFailure _ => 0
  | .cellarUnitFailure _ => 0
  | .dramRowFailure _ => 0
  | .l2WayFailure => 0
  | .snapInEdge => 0
  | .snaptrigWrite _ => 0
  | .snapctlFullClear => 0
  | .snapOutRelease => 0
  | .plimitWrite _ => 0
  | .throttleStepDown _ => 0
  | .throttleRestore _ => 0
  | .thermalTrip => 0
  | .hardwarePrefetch _ _ _ => 0
  | .mergeTableAgeHold => 0
  | .hostPeerLoadCompletion _ => 0

/-- The guard field (R190); an event reads as always true. -/
def Instr.guard : Instr → Guard
  | .bra g _ _ _ => g
  | .brc g _ _ _ => g
  | .br4 g _ _ _ _ _ _ _ _ _ _ => g
  | .switch g _ _ _ _ _ => g
  | .call g _ => g
  | .callReg g _ => g
  | .ret g => g
  | .exit g => g
  | .nop g => g
  | .yield g => g
  | .slpt g _ => g
  | .waitk g _ _ => g
  | .trap g _ => g
  | .gset g _ _ _ _ => g
  | .region g => g
  | .dsync g => g
  | .srd g _ _ => g
  | .swr g _ _ => g
  | .rft g => g
  | .psrd g _ _ => g
  | .pswr g _ _ => g
  | .halt g => g
  | .snap g => g
  | .prft g => g
  | .sadd g _ _ _ _ _ => g
  | .ssub g _ _ _ _ _ => g
  | .smul g _ _ _ _ _ => g
  | .smulh g _ _ _ _ => g
  | .smad g _ _ _ _ _ _ => g
  | .sand g _ _ _ _ => g
  | .sor g _ _ _ _ => g
  | .sxor g _ _ _ _ => g
  | .sshl g _ _ _ _ => g
  | .sshr g _ _ _ _ => g
  | .ssar g _ _ _ _ => g
  | .smin g _ _ _ _ => g
  | .smax g _ _ _ _ => g
  | .scmp g _ _ _ _ _ => g
  | .ssel g _ _ _ _ _ => g
  | .smov g _ _ _ => g
  | .smovi g _ _ => g
  | .smovh g _ _ _ => g
  | .spop g _ _ _ => g
  | .sclz g _ _ _ => g
  | .sbfe g _ _ _ _ => g
  | .sbfi g _ _ _ _ _ => g
  | .sld g _ _ _ _ _ => g
  | .sst g _ _ _ _ => g
  | .pset g _ _ => g
  | .pand g _ _ _ _ _ => g
  | .por g _ _ _ _ _ => g
  | .pxor g _ _ _ _ _ => g
  | .pnot g _ _ => g
  | .pmov g _ _ _ => g
  | .pany g _ _ _ => g
  | .qcmp g _ _ _ _ _ => g
  | .qand g _ _ _ _ => g
  | .qor g _ _ _ _ => g
  | .qnot g _ _ => g
  | .qblend g _ _ _ _ => g
  | .qdraw g _ _ _ => g
  | .qgrad g _ _ => g
  | .qmov g _ _ _ => g
  | .qlin g _ _ _ _ => g
  | .vadd g _ _ _ _ _ => g
  | .vsub g _ _ _ _ _ => g
  | .vmul g _ _ _ _ _ => g
  | .vmulh g _ _ _ _ => g
  | .vmad g _ _ _ _ _ _ => g
  | .vand g _ _ _ _ => g
  | .vor g _ _ _ _ => g
  | .vxor g _ _ _ _ => g
  | .vnot g _ _ _ => g
  | .vshl g _ _ _ _ => g
  | .vshr g _ _ _ _ => g
  | .vsar g _ _ _ _ => g
  | .vmin g _ _ _ _ => g
  | .vmax g _ _ _ _ => g
  | .vabs g _ _ _ _ => g
  | .vcmp g _ _ _ _ _ => g
  | .vsel g _ _ _ _ _ _ => g
  | .vmov g _ _ _ => g
  | .vmovi g _ _ => g
  | .vpop g _ _ _ => g
  | .vclz g _ _ _ => g
  | .vbfe g _ _ _ _ => g
  | .vbfi g _ _ _ _ _ => g
  | .fadd g _ _ _ _ _ _ => g
  | .fsub g _ _ _ _ _ _ => g
  | .fmul g _ _ _ _ _ _ => g
  | .ffma g _ _ _ _ _ _ _ => g
  | .fmin g _ _ _ => g
  | .fmax g _ _ _ => g
  | .fcmp g _ _ _ _ => g
  | .frcp g _ _ => g
  | .frsq g _ _ => g
  | .fsqrt g _ _ => g
  | .fexp2 g _ _ => g
  | .flog2 g _ _ => g
  | .frnd g _ _ _ => g
  | .fclass g _ _ => g
  | .hfma2 g _ _ _ _ _ _ _ _ => g
  | .cvt g _ _ _ _ _ _ _ _ => g
  | .cvtpk g _ _ _ _ _ _ _ => g
  | .cvtmx g _ _ _ _ _ _ _ => g
  | .cvtl6 g _ _ _ _ _ _ _ => g
  | .vshf g _ _ _ _ => g
  | .vbcst g _ _ _ => g
  | .vred g _ _ _ _ _ => g
  | .vscan g _ _ _ _ _ _ => g
  | .vbal g _ _ _ _ => g
  | .vrdl g _ _ _ => g
  | .vwrl g _ _ _ => g
  | .ld g _ _ _ _ _ => g
  | .st g _ _ _ _ _ => g
  | .lds g _ _ _ => g
  | .sts g _ _ _ _ => g
  | .atom g _ _ _ _ => g
  | .acas g _ _ _ => g
  | .fatom g _ _ _ _ => g
  | .acq g => g
  | .rel g => g
  | .cmo g _ _ _ _ => g
  | .cmoBmp g _ _ _ => g
  | .pref g _ _ => g
  | .gdld g _ _ => g
  | .ild g _ _ _ _ => g
  | .ildg g _ _ _ _ => g
  | .ispl g _ _ _ _ => g
  | .hins g _ _ _ _ => g
  | .hfind g _ _ _ => g
  | .nbr g _ _ _ => g
  | .hframe g _ _ => g
  | .cpy g _ _ _ _ _ _ _ _ _ _ => g
  | .cpyr g _ _ _ _ _ _ _ _ _ _ => g
  | .binit g _ _ => g
  | .barr g _ => g
  | .bwait g _ => g
  | .btest g _ _ => g
  | .bjoin g _ => g
  | .bleave g _ => g
  | .mma g _ _ _ _ _ _ _ _ _ => g
  | .mzero g _ => g
  | .mlda g _ _ _ _ => g
  | .msta g _ _ _ _ _ _ => g
  | .wbld g _ _ => g
  | .msec g _ => g
  | .mend g => g
  | .xprog g _ _ => g
  | .xmv g _ _ _ => g
  | .xcal g _ _ => g
  | .xref g _ _ _ => g
  | .accept g _ _ => g
  | .tbind g _ _ _ _ => g
  | .tq g _ _ _ _ => g
  | .tqm g _ _ _ _ _ => g
  | .nlaunch g _ _ _ _ _ => g
  | .post g _ _ => g
  | .clauseHeader _ _ => 7
  | .rotationBlockTimeout _ _ => 7
  | .forcedIssue _ => 7
  | .promiseCheck _ => 7
  | .slptWake _ _ => 7
  | .loadDataReturn _ _ => 7
  | .storeRegister _ _ _ => 7
  | .atomicPerform _ _ => 7
  | .mshrGrant _ _ => 7
  | .mshrAgeHold _ => 7
  | .cmoComplete _ => 7
  | .gdldDataArrival _ => 7
  | .splatAddArrival _ _ => 7
  | .hinsBucketStep _ _ => 7
  | .hframeApply _ => 7
  | .copyIssueProbe _ _ => 7
  | .copyComplete _ => 7
  | .guardSlotRead _ => 7
  | .cpyrPartApply _ _ => 7
  | .matrixPassGrant _ => 7
  | .matrixEntryAged _ => 7
  | .mmaComplete _ => 7
  | .tileRowComplete _ => 7
  | .wbldComplete _ => 7
  | .xprogDone _ => 7
  | .xmvPassDone _ => 7
  | .xcalDone _ => 7
  | .xrefDone _ => 7
  | .tbindCopyDone _ => 7
  | .tqDone _ => 7
  | .detSyncEffect _ _ => 7
  | .qtailWrite _ _ => 7
  | .commandNop _ => 7
  | .commandLaunch _ => 7
  | .commandReplay _ => 7
  | .queueStarvationTimeout _ => 7
  | .windowFreeAdmit _ => 7
  | .blockPlace _ _ => 7
  | .caravanPlace _ _ => 7
  | .blockWaitTimeout _ _ => 7
  | .caravanWaitTimeout _ _ => 7
  | .nodeKernel _ _ => 7
  | .nodeCellar _ _ => 7
  | .nodeCopy _ _ => 7
  | .nodeHostwait _ _ => 7
  | .nodeCond _ _ => 7
  | .nodeEvent _ _ => 7
  | .nodeComplete _ _ => 7
  | .rheadWrite _ _ => 7
  | .eventRecordWrite _ => 7
  | .ringCoalesceTimeout _ => 7
  | .pctlPreWrite _ => 7
  | .partitionHalted _ => 7
  | .shadowSaveDone _ => 7
  | .drainDone _ => 7
  | .pctlResumeWrite _ => 7
  | .restoreDone _ => 7
  | .xareleaseWrite _ => 7
  | .shadowwaysWrite _ => 7
  | .cmapWrite _ => 7
  | .xlstatRfailClear _ => 7
  | .registerWrite _ _ => 7
  | .atsTranslationCompletion _ _ _ _ _ _ _ => 7
  | .atsCompletionTimeout _ _ => 7
  | .pageRequestGroupSend => 7
  | .prgResponseSuccess _ => 7
  | .prgResponseInvalidRequest _ => 7
  | .prgResponseFailure _ => 7
  | .atsInvalidateRequest _ _ _ => 7
  | .regionRequeue _ => 7
  | .hostAtomicopCompletion _ _ _ => 7
  | .hostFlushReadCompletion _ => 7
  | .peerAcknowledge _ => 7
  | .hostBar2Read _ _ => 7
  | .hostBar2Write _ _ => 7
  | .peerAccessIn _ => 7
  | .cellarJobStart _ => 7
  | .cellarDot _ => 7
  | .cellarSegsum _ => 7
  | .cellarAdamw _ => 7
  | .cellarRapply _ _ => 7
  | .cellarFill _ => 7
  | .cellarJobComplete _ => 7
  | .sequenceEntryFree _ => 7
  | .powerOnReset => 7
  | .attcmdWrite _ => 7
  | .attestationReport => 7
  | .linkPortStateChange _ _ => 7
  | .linkFlitReplay _ => 7
  | .uncorrectableError _ => 7
  | .correctableError => 7
  | .clusterFailure _ => 7
  | .cellarUnitFailure _ => 7
  | .dramRowFailure _ => 7
  | .l2WayFailure => 7
  | .snapInEdge => 7
  | .snaptrigWrite _ => 7
  | .snapctlFullClear => 7
  | .snapOutRelease => 7
  | .plimitWrite _ => 7
  | .throttleStepDown _ => 7
  | .throttleRestore _ => 7
  | .thermalTrip => 7
  | .hardwarePrefetch _ _ _ => 7
  | .mergeTableAgeHold => 7
  | .hostPeerLoadCompletion _ => 7

end Sys2Proof
end

