-- ==== Sys2Proof/WellFormed.lean ====
section
/-!
DEFINITION. Which instructions are well formed: register field kinds, unused and reserved fields, modifier codes
(R191 to R199), and the registers an instruction names (R69, R268).
-/
namespace Sys2Proof

/-- The width in bits of a TYPE (R198). -/
def IntTy.width : IntTy → Nat
  | .i8 => 8 | .i16 => 16 | .i32 => 32 | .i64 => 64 | .n8 => 8 | .n16 => 16 | .n32 => 32 | .n64 => 64
/-- Signed TYPEs are the I types (R198). -/
def IntTy.signed : IntTy → Bool
  | .i8 => true | .i16 => true | .i32 => true | .i64 => true | .n8 => false | .n16 => false | .n32 => false | .n64 => false
/-- The TYPEs a vector instruction takes (R240). -/
def IntTy.narrow (t : IntTy) : Bool := decide (t.width ≤ 32)
/-- The 32-bit TYPEs (R241, R244). -/
def IntTy.word (t : IntTy) : Bool := decide (t.width = 32)
/-- Width in bits of a conversion format (R252). -/
def CFmt.width : CFmt → Nat
  | .f32 => 32 | .f16 => 16 | .bf16 => 16 | .e5m2 => 8 | .e4m3 => 8 | .e2m1 => 4 | .i32 => 32 | .n32 => 32
  | .i16 => 16 | .n16 => 16 | .i8 => 8 | .n8 => 8 | .i4 => 4 | .n4 => 4 | .q16 => 16
/-- The float formats of R252. -/
def CFmt.float : CFmt → Bool
  | .f32 => true | .f16 => true | .bf16 => true | .e5m2 => true | .e4m3 => true | .e2m1 => true
  | .i32 => false | .n32 => false | .i16 => false | .n16 => false | .i8 => false | .n8 => false | .i4 => false
  | .n4 => false | .q16 => false
/-- The integer formats of R252. -/
def CFmt.int (f : CFmt) : Bool := !f.float && f != .q16
/-- The pairs of the table "Conversion pairs" (R253). -/
def cvtPair (src dst : CFmt) : Bool :=
  (src.float || src.int || (dst.float || dst == .q16)) && !(src.int && dst == .q16) && !(src == .q16 && dst.int)
/-- Element registers CVTMX writes (R256). -/
def MxFmt.nregs : MxFmt → Nat
  | .e5m2 => 8 | .e4m3 => 8 | .e2m1 => 4
/-- Bytes of an access width (R195). -/
def Width.bytes : Width → Nat
  | .w1 => 1 | .w2 => 2 | .w4 => 4 | .w8 => 8 | .w16 => 16
/-- Registers of a lane's data (R266). -/
def Width.regs : Width → Nat
  | .w1 => 1 | .w2 => 1 | .w4 => 1 | .w8 => 2 | .w16 => 4
/-- The widths LDS and STS take (R266). -/
def Width.wordy : Width → Bool
  | .w1 => false | .w2 => false | .w4 => true | .w8 => true | .w16 => true
/-- The reductions FP32 takes (R258). -/
def RedOp.fp : RedOp → Bool
  | .add => true | .mul => true | .min => true | .max => true | .and => false | .or => false | .xor => false
/-- Registers VBAL writes (R264). -/
def BalMode.nregs : BalMode → Nat
  | .mask => 2 | .pre => 1 | .total => 1
/-- The WIDTH field that goes with a FATOM format (R275). -/
def FatFmt.widthCode : FatFmt → BitVec 3
  | .f32 => 2 | .bf16 => 1 | .f16 => 1
/-- The numbered user registers that SWR writes (R307). -/
def userWritable (n : BitVec 8) : Bool := decide (2 ≤ n.toNat) && decide (n.toNat ≤ 6)
/-- The privileged register numbers of R381. -/
def privNum (n : Nat) : Bool := decide (n ≤ 6) || (decide (8 ≤ n) && decide (n ≤ 13)) || (decide (16 ≤ n) && decide (n ≤ 20))
/-- The privileged registers that PSWR writes (R381). -/
def privWritable (n : Nat) : Bool := decide (n ≤ 1) || (decide (3 ≤ n) && decide (n ≤ 6)) || (decide (8 ≤ n) && decide (n ≤ 13))
/-- A register field inside a range of `n` registers from `d` (R256). -/
def inRange (c d : Fld) (n : Nat) : Bool := decide (d.toNat ≤ c.toNat) && decide (c.toNat < d.toNat + n)

/-- The operand kinds of the table "Register field kinds" (R191) and of format M (R195). -/
inductive Operand where
  | vsrc (f : Fld) | vdst (f : Fld) (n : Nat) | vrng (f : Fld) (n : Nat)
  | ssrc (f : Fld) | sdst (f : Fld) | spair (f : Fld)
  | psrc (f : Fld) | pdst (f : Fld) | pcode (f : Fld)
  | qreg (f : Fld) | gslot (f : Fld) | tile (f : Fld) | bar (f : Fld) | tslot (f : Fld) | dslot (f : Fld)
  | base (b : BitVec 7) | sreg7 (b : BitVec 7) | zreg (b : BitVec 7) | index (f : Fld) | noIndex (f : Fld)
  deriving DecidableEq, Repr

/-- The legal values of each kind (R191, R195, R197, R199). -/
def Operand.ok : Operand → Bool
  | .vsrc _ => true
  | .vdst f _ => decide (f.toNat < 384)
  | .vrng f _ => decide (f.toNat < 384)
  | .ssrc f => decide (384 ≤ f.toNat)
  | .sdst f => decide (384 ≤ f.toNat) && decide (f.toNat < 480)
  | .spair f => decide (384 ≤ f.toNat) && decide (f.toNat < 479)
  | .psrc f => decide (f.toNat < 8)
  | .pdst f => decide (f.toNat < 7)
  | .pcode f => decide (f.toNat < 16)
  | .qreg f => decide (f.toNat < 8)
  | .gslot f => decide (f.toNat < 8)
  | .tile f => decide (f.toNat < 8)
  | .bar f => decide (f.toNat < 16)
  | .tslot f => decide (f.toNat < 16)
  | .dslot f => decide (f.toNat < 32)
  | .base b => decide (b.toNat < 96) || b == 127
  | .sreg7 b => decide (b.toNat < 96)
  | .zreg b => decide (b.toNat < 96) || b == 127
  | .index f => decide (f.toNat < 384) || f == 511
  | .noIndex f => f == 511

/-- One more than the highest vector register an operand names (R69); 0 when it names none. -/
def Operand.vtop : Operand → Nat
  | .vsrc f => if f.toNat < 384 then f.toNat + 1 else 0
  | .vdst f n => f.toNat + n
  | .vrng f n => f.toNat + n
  | .index f => if f.toNat < 384 then f.toNat + 1 else 0
  | .ssrc _ => 0 | .sdst _ => 0 | .spair _ => 0 | .psrc _ => 0 | .pdst _ => 0 | .pcode _ => 0 | .qreg _ => 0
  | .gslot _ => 0 | .tile _ => 0 | .bar _ => 0 | .tslot _ => 0 | .dslot _ => 0 | .base _ => 0 | .sreg7 _ => 0
  | .zreg _ => 0 | .noIndex _ => 0

/-- The vector registers an operand reads or writes (R268). -/
def Operand.vuse : Operand → List Nat
  | .vsrc f => if f.toNat < 384 then [f.toNat] else []
  | .vdst f n => List.range' f.toNat n
  | .vrng f n => List.range' f.toNat n
  | .index f => if f.toNat < 384 then [f.toNat] else []
  | .ssrc _ => [] | .sdst _ => [] | .spair _ => [] | .psrc _ => [] | .pdst _ => [] | .pcode _ => [] | .qreg _ => []
  | .gslot _ => [] | .tile _ => [] | .bar _ => [] | .tslot _ => [] | .dslot _ => [] | .base _ => [] | .sreg7 _ => []
  | .zreg _ => [] | .noIndex _ => []

/-- The scalar registers an operand reads or writes (R114). -/
def Operand.suse : Operand → List Nat
  | .vsrc f => if 384 ≤ f.toNat ∧ f.toNat < 480 then [f.toNat - 384] else []
  | .ssrc f => if f.toNat < 480 then [f.toNat - 384] else []
  | .sdst f => [f.toNat - 384]
  | .spair f => [f.toNat - 384, f.toNat - 383]
  | .base b => if b.toNat < 96 then [b.toNat] else []
  | .sreg7 b => [b.toNat]
  | .zreg b => if b.toNat < 96 then [b.toNat] else []
  | .vdst _ _ => [] | .vrng _ _ => [] | .psrc _ => [] | .pdst _ => [] | .pcode _ => [] | .qreg _ => [] | .gslot _ => []
  | .tile _ => [] | .bar _ => [] | .tslot _ => [] | .dslot _ => [] | .index _ => [] | .noIndex _ => []

/-- The descriptor slots an operand names (R93). -/
def Operand.duse : Operand → List Nat
  | .dslot f => [f.toNat]
  | .vsrc _ => [] | .ssrc _ => [] | .sdst _ => [] | .spair _ => [] | .base _ => [] | .sreg7 _ => [] | .zreg _ => []
  | .vdst _ _ => [] | .vrng _ _ => [] | .psrc _ => [] | .pdst _ => [] | .pcode _ => [] | .qreg _ => [] | .gslot _ => []
  | .tile _ => [] | .bar _ => [] | .tslot _ => [] | .index _ => [] | .noIndex _ => []

/-- The kinds of QMOV's destination and source by direction (R235). -/
def QDir.dstKind (dir : QDir) (f : Fld) : Operand :=
  match dir with | .qq => .qreg f | .fromV => .qreg f | .toV => .vdst f 1
/-- The kind of QMOV's source (R235). -/
def QDir.srcKind (dir : QDir) (f : Fld) : Operand :=
  match dir with | .qq => .qreg f | .fromV => .vsrc f | .toV => .qreg f

/-- The register operands of an instruction with their kinds (R191) and ranges (R69, R266). -/
def Instr.operands : Instr → List Operand
  | .bra _ _ _ _ => []
  | .brc _ _ cnd _ => [.sreg7 cnd]
  | .br4 _ _ _ _ _ _ _ _ _ _ _ => []
  | .switch _ val _ _ _ _ => [.vrng val 1]
  | .call _ _ => []
  | .callReg _ sc => [.sreg7 sc]
  | .ret _ => []
  | .exit _ => []
  | .nop _ => []
  | .yield _ => []
  | .slpt _ a => [.ssrc a]
  | .waitk _ _ _ => []
  | .trap _ _ => []
  | .gset _ _ _ d a => [.gslot d, .psrc a]
  | .region _ => []
  | .dsync _ => []
  | .srd _ d num => [if num == 9 || num == 14 then .vdst d 1 else .sdst d]
  | .swr _ _ a => [.ssrc a]
  | .rft _ => []
  | .psrd _ d _ => [.sdst d]
  | .pswr _ _ a => [.ssrc a]
  | .halt _ => []
  | .snap _ => []
  | .prft _ => []
  | .sadd _ _ _ d a b => [.sdst d, .ssrc a, .ssrc b]
  | .ssub _ _ _ d a b => [.sdst d, .ssrc a, .ssrc b]
  | .smul _ _ _ d a b => [.sdst d, .ssrc a, .ssrc b]
  | .smulh _ _ d a b => [.sdst d, .ssrc a, .ssrc b]
  | .smad _ _ _ d a b c => [.sdst d, .ssrc a, .ssrc b, .ssrc c]
  | .sand _ _ d a b => [.sdst d, .ssrc a, .ssrc b]
  | .sor _ _ d a b => [.sdst d, .ssrc a, .ssrc b]
  | .sxor _ _ d a b => [.sdst d, .ssrc a, .ssrc b]
  | .sshl _ _ d a b => [.sdst d, .ssrc a, .ssrc b]
  | .sshr _ _ d a b => [.sdst d, .ssrc a, .ssrc b]
  | .ssar _ _ d a b => [.sdst d, .ssrc a, .ssrc b]
  | .smin _ _ d a b => [.sdst d, .ssrc a, .ssrc b]
  | .smax _ _ d a b => [.sdst d, .ssrc a, .ssrc b]
  | .scmp _ _ _ d a b => [.sdst d, .ssrc a, .ssrc b]
  | .ssel _ _ d a b c => [.sdst d, .ssrc a, .ssrc b, .ssrc c]
  | .smov _ _ d a => [.sdst d, .ssrc a]
  | .smovi _ d _ => [.sdst d]
  | .smovh _ d a _ => [.sdst d, .ssrc a]
  | .spop _ _ d a => [.sdst d, .ssrc a]
  | .sclz _ _ d a => [.sdst d, .ssrc a]
  | .sbfe _ _ d a b => [.sdst d, .ssrc a, .ssrc b]
  | .sbfi _ _ d a b c => [.sdst d, .ssrc a, .ssrc b, .ssrc c]
  | .sld _ _ _ _ d m => [.sdst d, .base m.base, .noIndex m.index]
  | .sst _ _ _ d m => [.ssrc d, .base m.base, .noIndex m.index]
  | .pset _ d a => [.pdst d, .ssrc a]
  | .pand _ _ _ d a b => [.pdst d, .psrc a, .psrc b]
  | .por _ _ _ d a b => [.pdst d, .psrc a, .psrc b]
  | .pxor _ _ _ d a b => [.pdst d, .psrc a, .psrc b]
  | .pnot _ d a => [.pdst d, .psrc a]
  | .pmov _ _ d a => [.pdst d, .psrc a]
  | .pany _ _ d a => [.sdst d, .psrc a]
  | .qcmp _ _ _ d a b => [.qreg d, .vsrc a, .vsrc b]
  | .qand _ _ d a b => [.qreg d, .qreg a, .qreg b]
  | .qor _ _ d a b => [.qreg d, .qreg a, .qreg b]
  | .qnot _ d a => [.qreg d, .qreg a]
  | .qblend _ d a b c => [.vdst d 1, .qreg a, .vsrc b, .vsrc c]
  | .qdraw _ _ d a => [.pdst d, .qreg a]
  | .qgrad _ d a => [.vdst d 1, .qreg a]
  | .qmov _ dir d a => [dir.dstKind d, dir.srcKind a]
  | .qlin _ _ _ d a => [.qreg d, .qreg a]
  | .vadd _ _ _ d a b => [.vdst d 1, .vsrc a, .vsrc b]
  | .vsub _ _ _ d a b => [.vdst d 1, .vsrc a, .vsrc b]
  | .vmul _ _ _ d a b => [.vdst d 1, .vsrc a, .vsrc b]
  | .vmulh _ _ d a b => [.vdst d 1, .vsrc a, .vsrc b]
  | .vmad _ _ _ d a b c => [.vdst d 1, .vsrc a, .vsrc b, .vsrc c]
  | .vand _ _ d a b => [.vdst d 1, .vsrc a, .vsrc b]
  | .vor _ _ d a b => [.vdst d 1, .vsrc a, .vsrc b]
  | .vxor _ _ d a b => [.vdst d 1, .vsrc a, .vsrc b]
  | .vnot _ _ d a => [.vdst d 1, .vsrc a]
  | .vshl _ _ d a b => [.vdst d 1, .vsrc a, .vsrc b]
  | .vshr _ _ d a b => [.vdst d 1, .vsrc a, .vsrc b]
  | .vsar _ _ d a b => [.vdst d 1, .vsrc a, .vsrc b]
  | .vmin _ _ d a b => [.vdst d 1, .vsrc a, .vsrc b]
  | .vmax _ _ d a b => [.vdst d 1, .vsrc a, .vsrc b]
  | .vabs _ _ _ d a => [.vdst d 1, .vsrc a]
  | .vcmp _ _ _ d a b => [.pdst d, .vsrc a, .vsrc b]
  | .vsel _ _ _ d a b c => [.vdst d 1, .vsrc a, .vsrc b, .psrc c]
  | .vmov _ _ d a => [.vdst d 1, .vsrc a]
  | .vmovi _ d _ => [.vdst d 1]
  | .vpop _ _ d a => [.vdst d 1, .vsrc a]
  | .vclz _ _ d a => [.vdst d 1, .vsrc a]
  | .vbfe _ _ d a b => [.vdst d 1, .vsrc a, .vsrc b]
  | .vbfi _ _ d a b c => [.vdst d 1, .vsrc a, .vsrc b, .vsrc c]
  | .fadd _ _ _ _ d a b => [.vdst d 1, .vsrc a, .vsrc b]
  | .fsub _ _ _ _ d a b => [.vdst d 1, .vsrc a, .vsrc b]
  | .fmul _ _ _ _ d a b => [.vdst d 1, .vsrc a, .vsrc b]
  | .ffma _ _ _ _ d a b c => [.vdst d 1, .vsrc a, .vsrc b, .vsrc c]
  | .fmin _ d a b => [.vdst d 1, .vsrc a, .vsrc b]
  | .fmax _ d a b => [.vdst d 1, .vsrc a, .vsrc b]
  | .fcmp _ _ d a b => [.pdst d, .vsrc a, .vsrc b]
  | .frcp _ d a => [.vdst d 1, .vsrc a]
  | .frsq _ d a => [.vdst d 1, .vsrc a]
  | .fsqrt _ d a => [.vdst d 1, .vsrc a]
  | .fexp2 _ d a => [.vdst d 1, .vsrc a]
  | .flog2 _ d a => [.vdst d 1, .vsrc a]
  | .frnd _ _ d a => [.vdst d 1, .vsrc a]
  | .fclass _ d a => [.vdst d 1, .vsrc a]
  | .hfma2 _ _ _ _ _ d a b c => [.vdst d 1, .vsrc a, .vsrc b, .vsrc c]
  | .cvt _ _ _ _ _ _ _ d a => [.vdst d 1, .vsrc a]
  | .cvtpk _ _ _ _ df _ d a => [.vdst d 1, .vrng a (32 / df.width)]
  | .cvtmx _ _ _ df _ d a c => [.vdst d df.nregs, .vrng a 32, .vdst c 1]
  | .cvtl6 _ _ _ b16 _ d a c => [.vdst d (if b16 then 3 else 6), .vrng a (if b16 then 16 else 32), .vdst c 1]
  | .vshf _ _ d a b => [.vdst d 1, .vsrc a, .vsrc b]
  | .vbcst _ d a b => [.vdst d 1, .vsrc a, .ssrc b]
  | .vred _ _ _ _ d a => [.vdst d 1, .vsrc a]
  | .vscan _ _ _ _ _ d a => [.vdst d 1, .vsrc a]
  | .vbal _ _ mode d a => [.vdst d mode.nregs, .pcode a]
  | .vrdl _ d a b => [.sdst d, .vsrc a, .ssrc b]
  | .vwrl _ d a b => [.vdst d 1, .ssrc a, .ssrc b]
  | .ld _ _ wd _ d m => [.vdst d wd.regs, .base m.base, .index m.index]
  | .st _ _ wd _ d m => [.vrng d wd.regs, .base m.base, .index m.index]
  | .lds _ wd d m => [.vdst d wd.regs, .base m.base, .index m.index]
  | .sts _ _ wd d m => [.vrng d wd.regs, .base m.base, .index m.index]
  | .atom _ _ wd d m => [.vdst d wd.regs, .base m.base, .index m.index]
  | .acas _ wd d m => [.vdst d (2 * wd.regs), .base m.base, .index m.index]
  | .fatom _ _ _ d m => [.vrng d 1, .base m.base, .index m.index]
  | .acq _ => []
  | .rel _ => []
  | .cmo _ _ _ d m => [.sdst d, .base m.base, .noIndex m.index]
  | .cmoBmp _ _ d m => [.sdst d, .base m.base, .noIndex m.index]
  | .pref _ _ m => [.base m.base, .index m.index]
  | .gdld _ d m => [.dslot d, .base m.base, .noIndex m.index]
  | .ild _ _ d a b => [.vdst d 1, .vrng a 1, .dslot b]
  | .ildg _ _ d a b => [.vdst d 1, .vrng a 1, .dslot b]
  | .ispl _ _ a b c => [.vrng a 1, .dslot b, .vrng c 1]
  | .hins _ d a b c => [.vdst d 2, .vrng a 1, .dslot b, .vrng c 1]
  | .hfind _ d a b => [.vdst d 2, .vrng a 1, .dslot b]
  | .nbr _ d a b => [.vdst d 1, .vrng a 1, .dslot b]
  | .hframe _ d b => [.sdst d, .dslot b]
  | .cpy _ _ _ _ _ _ zs org ext d m => [.sdst d, .base m.base, .noIndex m.index, .zreg zs, .vrng org 5, .vrng ext 5]
  | .cpyr _ _ _ _ _ _ zs org ext d m => [.sdst d, .base m.base, .noIndex m.index, .zreg zs, .vrng org 5, .vrng ext 5]
  | .binit _ d _ => [.bar d]
  | .barr _ a => [.bar a]
  | .bwait _ a => [.bar a]
  | .btest _ d a => [.sdst d, .bar a]
  | .bjoin _ a => [.bar a]
  | .bleave _ a => [.bar a]
  | .mma _ _ _ _ d a _ _ _ _ => [.tile d, .spair a]
  | .mzero _ d => [.tile d]
  | .mlda _ _ _ d m => [.tile d, .base m.base, .index m.index]
  | .msta _ _ _ _ _ d m => [.sdst d, .base m.base, .index m.index]
  | .wbld _ d m => [.ssrc d, .base m.base, .noIndex m.index]
  | .msec _ _ => []
  | .mend _ => []
  | .xprog _ d m => [.ssrc d, .base m.base, .noIndex m.index]
  | .xmv _ d a b => [.vdst d 32, .vrng a 8, .ssrc b]
  | .xcal _ d b => [.sdst d, .ssrc b]
  | .xref _ d a b => [.vdst d 1, .vrng a 8, .ssrc b]
  | .accept _ d a => [.vdst d 1, .vsrc a]
  | .tbind _ _ _ d m => [.ssrc d, .base m.base, .noIndex m.index]
  | .tq _ _ d a b => [.vdst d 1, .vsrc a, .tslot b]
  | .tqm _ _ d a b c => [.vdst d 1, .vsrc a, .vsrc b, .tslot c]
  | .nlaunch _ _ _ _ _ m => [.base m.base, .noIndex m.index]
  | .post _ d m => [.ssrc d, .base m.base, .noIndex m.index]
  | .clauseHeader _ _ => []
  | .rotationBlockTimeout _ _ => []
  | .forcedIssue _ => []
  | .promiseCheck _ => []
  | .slptWake _ _ => []
  | .loadDataReturn _ _ => []
  | .storeRegister _ _ _ => []
  | .atomicPerform _ _ => []
  | .mshrGrant _ _ => []
  | .mshrAgeHold _ => []
  | .cmoComplete _ => []
  | .gdldDataArrival _ => []
  | .splatAddArrival _ _ => []
  | .hinsBucketStep _ _ => []
  | .hframeApply _ => []
  | .copyIssueProbe _ _ => []
  | .copyComplete _ => []
  | .guardSlotRead _ => []
  | .cpyrPartApply _ _ => []
  | .matrixPassGrant _ => []
  | .matrixEntryAged _ => []
  | .mmaComplete _ => []
  | .tileRowComplete _ => []
  | .wbldComplete _ => []
  | .xprogDone _ => []
  | .xmvPassDone _ => []
  | .xcalDone _ => []
  | .xrefDone _ => []
  | .tbindCopyDone _ => []
  | .tqDone _ => []
  | .detSyncEffect _ _ => []
  | .qtailWrite _ _ => []
  | .commandNop _ => []
  | .commandLaunch _ => []
  | .commandReplay _ => []
  | .queueStarvationTimeout _ => []
  | .windowFreeAdmit _ => []
  | .blockPlace _ _ => []
  | .caravanPlace _ _ => []
  | .blockWaitTimeout _ _ => []
  | .caravanWaitTimeout _ _ => []
  | .nodeKernel _ _ => []
  | .nodeCellar _ _ => []
  | .nodeCopy _ _ => []
  | .nodeHostwait _ _ => []
  | .nodeCond _ _ => []
  | .nodeEvent _ _ => []
  | .nodeComplete _ _ => []
  | .rheadWrite _ _ => []
  | .eventRecordWrite _ => []
  | .ringCoalesceTimeout _ => []
  | .pctlPreWrite _ => []
  | .partitionHalted _ => []
  | .shadowSaveDone _ => []
  | .drainDone _ => []
  | .pctlResumeWrite _ => []
  | .restoreDone _ => []
  | .xareleaseWrite _ => []
  | .shadowwaysWrite _ => []
  | .cmapWrite _ => []
  | .xlstatRfailClear _ => []
  | .registerWrite _ _ => []
  | .atsTranslationCompletion _ _ _ _ _ _ _ => []
  | .atsCompletionTimeout _ _ => []
  | .pageRequestGroupSend => []
  | .prgResponseSuccess _ => []
  | .prgResponseInvalidRequest _ => []
  | .prgResponseFailure _ => []
  | .atsInvalidateRequest _ _ _ => []
  | .regionRequeue _ => []
  | .hostAtomicopCompletion _ _ _ => []
  | .hostFlushReadCompletion _ => []
  | .peerAcknowledge _ => []
  | .hostBar2Read _ _ => []
  | .hostBar2Write _ _ => []
  | .peerAccessIn _ => []
  | .cellarJobStart _ => []
  | .cellarDot _ => []
  | .cellarSegsum _ => []
  | .cellarAdamw _ => []
  | .cellarRapply _ _ => []
  | .cellarFill _ => []
  | .cellarJobComplete _ => []
  | .sequenceEntryFree _ => []
  | .powerOnReset => []
  | .attcmdWrite _ => []
  | .attestationReport => []
  | .linkPortStateChange _ _ => []
  | .linkFlitReplay _ => []
  | .uncorrectableError _ => []
  | .correctableError => []
  | .clusterFailure _ => []
  | .cellarUnitFailure _ => []
  | .dramRowFailure _ => []
  | .l2WayFailure => []
  | .snapInEdge => []
  | .snaptrigWrite _ => []
  | .snapctlFullClear => []
  | .snapOutRelease => []
  | .plimitWrite _ => []
  | .throttleStepDown _ => []
  | .throttleRestore _ => []
  | .thermalTrip => []
  | .hardwarePrefetch _ _ _ => []
  | .mergeTableAgeHold => []
  | .hostPeerLoadCompletion _ => []

/-- The field checks of the entry that are not register kinds (R191, R193 to R199 and the reference entries). VSEL accepts every TYPE:
R242 says that it ignores TYPE, which is read over the shared rule of R240 (DEDUCED, log 113). -/
def Instr.fieldsOk : Instr → Bool
  | .bra _ _ _ _ => true
  | .brc _ cond cnd _ => (cond != .al || cnd == 0)
  | .br4 _ kind _ _ _ p1 t1 p2 t2 p3 t3 => (1 ≤ kind.toNat || (p1 == 0 && t1 == 0)) && (2 ≤ kind.toNat || (p2 == 0 && t2 == 0)) && (3 ≤ kind.toNat || (p3 == 0 && t3 == 0))
  | .switch _ _ ncase kb _ toff => kb.toNat + ncase.toNat ≤ 65535 && decide (toff.toNat < 2 ^ (8 * (ncase.toNat + 1)))
  | .call _ _ => true
  | .callReg _ _ => true
  | .ret _ => true
  | .exit _ => true
  | .nop _ => true
  | .yield _ => true
  | .slpt _ _ => true
  | .waitk _ _ _ => true
  | .trap _ _ => true
  | .gset _ neg u _ a => (!u || (a == 0 && !neg))
  | .region _ => true
  | .dsync _ => true
  | .srd _ _ num => decide (num.toNat < 16)
  | .swr _ num _ => userWritable num.toNat
  | .rft _ => true
  | .psrd _ _ num => privNum num.toNat
  | .pswr _ num _ => privWritable num.toNat
  | .halt _ => true
  | .snap _ => true
  | .prft _ => true
  | .sadd _ _ _ _ _ _ => true
  | .ssub _ _ _ _ _ _ => true
  | .smul _ _ _ _ _ _ => true
  | .smulh _ _ _ _ _ => true
  | .smad _ _ _ _ _ _ _ => true
  | .sand _ _ _ _ _ => true
  | .sor _ _ _ _ _ => true
  | .sxor _ _ _ _ _ => true
  | .sshl _ _ _ _ _ => true
  | .sshr _ _ _ _ _ => true
  | .ssar _ _ _ _ _ => true
  | .smin _ _ _ _ _ => true
  | .smax _ _ _ _ _ => true
  | .scmp _ _ _ _ _ _ => true
  | .ssel _ _ _ _ _ _ => true
  | .smov _ _ _ _ => true
  | .smovi _ _ _ => true
  | .smovh _ _ _ _ => true
  | .spop _ _ _ _ => true
  | .sclz _ _ _ _ => true
  | .sbfe _ ty _ _ _ => (ty == .i64 || ty == .n64)
  | .sbfi _ ty _ _ _ _ => (ty == .i64 || ty == .n64)
  | .sld _ _ wd _ _ _ => (wd != .w16)
  | .sst _ wd _ _ _ => (wd != .w16)
  | .pset _ _ _ => true
  | .pand _ _ _ _ _ _ => true
  | .por _ _ _ _ _ _ => true
  | .pxor _ _ _ _ _ _ => true
  | .pnot _ _ _ => true
  | .pmov _ _ _ _ => true
  | .pany _ _ _ _ => true
  | .qcmp _ _ _ _ _ _ => true
  | .qand _ _ _ _ _ => true
  | .qor _ _ _ _ _ => true
  | .qnot _ _ _ => true
  | .qblend _ _ _ _ _ => true
  | .qdraw _ _ _ _ => true
  | .qgrad _ _ _ => true
  | .qmov _ _ _ _ => true
  | .qlin _ _ _ _ _ => true
  | .vadd _ ty _ _ _ _ => ty.narrow
  | .vsub _ ty _ _ _ _ => ty.narrow
  | .vmul _ ty _ _ _ _ => ty.narrow
  | .vmulh _ ty _ _ _ => ty.narrow
  | .vmad _ ty _ _ _ _ _ => ty.narrow
  | .vand _ ty _ _ _ => ty.narrow
  | .vor _ ty _ _ _ => ty.narrow
  | .vxor _ ty _ _ _ => ty.narrow
  | .vnot _ ty _ _ => ty.narrow
  | .vshl _ ty _ _ _ => ty.narrow
  | .vshr _ ty _ _ _ => ty.narrow
  | .vsar _ ty _ _ _ => ty.narrow
  | .vmin _ ty _ _ _ => ty.narrow
  | .vmax _ ty _ _ _ => ty.narrow
  | .vabs _ ty _ _ _ => ty.narrow && ty.signed
  | .vcmp _ ty _ _ _ _ => ty.word
  | .vsel _ _ _ _ _ _ _ => true
  | .vmov _ ty _ _ => ty.narrow
  | .vmovi _ _ _ => true
  | .vpop _ ty _ _ => ty.narrow
  | .vclz _ ty _ _ => ty.narrow
  | .vbfe _ ty _ _ _ => ty.word
  | .vbfi _ ty _ _ _ _ => ty.word
  | .fadd _ rnd _ stream _ _ _ => (rnd == .sr || stream == 0)
  | .fsub _ rnd _ stream _ _ _ => (rnd == .sr || stream == 0)
  | .fmul _ rnd _ stream _ _ _ => (rnd == .sr || stream == 0)
  | .ffma _ rnd _ stream _ _ _ _ => (rnd == .sr || stream == 0)
  | .fmin _ _ _ _ => true
  | .fmax _ _ _ _ => true
  | .fcmp _ _ _ _ _ => true
  | .frcp _ _ _ => true
  | .frsq _ _ _ => true
  | .fsqrt _ _ _ => true
  | .fexp2 _ _ _ => true
  | .flog2 _ _ _ => true
  | .frnd _ rnd _ _ => (rnd != .sr)
  | .fclass _ _ _ => true
  | .hfma2 _ rnd _ stream _ _ _ _ _ => (rnd == .sr || stream == 0)
  | .cvt _ rnd _ stream df sf spos _ _ => (rnd == .sr || stream == 0) && cvtPair sf df && decide (spos.toNat < 32 / sf.width)
  | .cvtpk _ rnd _ stream df sf _ _ => (rnd == .sr || stream == 0) && cvtPair sf df && decide (df.width < 32) && (sf == .f32 || ((sf == .i32 || sf == .n32) && df != .q16))
  | .cvtmx _ rnd stream df _ d _ c => (rnd == .sr || stream == 0) && !(inRange c d df.nregs)
  | .cvtl6 _ rnd stream b16 _ d _ c => (rnd == .sr || stream == 0) && !(inRange c d (if b16 then 3 else 6))
  | .vshf _ _ _ _ _ => true
  | .vbcst _ _ _ _ => true
  | .vred _ ty op _ _ _ => (ty != .f32 || op.fp)
  | .vscan _ ty op _ _ _ _ => (ty != .f32 || op.fp)
  | .vbal _ _ _ _ _ => true
  | .vrdl _ _ _ _ => true
  | .vwrl _ _ _ _ => true
  | .ld _ sx wd _ _ _ => (!sx || wd == .w1 || wd == .w2)
  | .st _ _ _ _ _ _ => true
  | .lds _ wd _ _ => wd.wordy
  | .sts _ _ wd _ _ => wd.wordy
  | .atom _ _ wd _ _ => (wd == .w4 || wd == .w8)
  | .acas _ wd _ _ => (wd == .w4 || wd == .w8)
  | .fatom _ _ _ _ _ => true
  | .acq _ => true
  | .rel _ => true
  | .cmo _ _ _ _ _ => true
  | .cmoBmp _ _ _ _ => true
  | .pref _ _ _ => true
  | .gdld _ _ _ => true
  | .ild _ _ _ _ _ => true
  | .ildg _ _ _ _ _ => true
  | .ispl _ _ _ _ _ => true
  | .hins _ _ _ _ _ => true
  | .hfind _ _ _ _ => true
  | .nbr _ _ _ _ => true
  | .hframe _ _ _ => true
  | .cpy _ _ _ gen gs _ _ _ _ _ _ => (gen || gs == 0)
  | .cpyr _ _ _ gen gs _ _ _ _ _ _ => (gen || gs == 0)
  | .binit _ _ _ => true
  | .barr _ _ => true
  | .bwait _ _ => true
  | .btest _ _ _ => true
  | .bjoin _ _ => true
  | .bleave _ _ => true
  | .mma _ bsrc _ _ _ _ _ _ _ pb => (!bsrc || pb == 0)
  | .mzero _ _ => true
  | .mlda _ _ pol _ m => (m.base != 127 || pol == .dflt)
  | .msta _ _ _ pol _ _ m => (m.base != 127 || pol == .dflt)
  | .wbld _ _ _ => true
  | .msec _ _ => true
  | .mend _ => true
  | .xprog _ _ _ => true
  | .xmv _ _ _ _ => true
  | .xcal _ _ _ => true
  | .xref _ _ _ _ => true
  | .accept _ _ _ => true
  | .tbind _ _ _ _ _ => true
  | .tq _ _ _ _ _ => true
  | .tqm _ _ _ _ _ _ => true
  | .nlaunch _ ben gen bar gs _ => (ben || bar == 0) && (gen || gs == 0)
  | .post _ _ _ => true
  | .clauseHeader _ _ => false
  | .rotationBlockTimeout _ _ => false
  | .forcedIssue _ => false
  | .promiseCheck _ => false
  | .slptWake _ _ => false
  | .loadDataReturn _ _ => false
  | .storeRegister _ _ _ => false
  | .atomicPerform _ _ => false
  | .mshrGrant _ _ => false
  | .mshrAgeHold _ => false
  | .cmoComplete _ => false
  | .gdldDataArrival _ => false
  | .splatAddArrival _ _ => false
  | .hinsBucketStep _ _ => false
  | .hframeApply _ => false
  | .copyIssueProbe _ _ => false
  | .copyComplete _ => false
  | .guardSlotRead _ => false
  | .cpyrPartApply _ _ => false
  | .matrixPassGrant _ => false
  | .matrixEntryAged _ => false
  | .mmaComplete _ => false
  | .tileRowComplete _ => false
  | .wbldComplete _ => false
  | .xprogDone _ => false
  | .xmvPassDone _ => false
  | .xcalDone _ => false
  | .xrefDone _ => false
  | .tbindCopyDone _ => false
  | .tqDone _ => false
  | .detSyncEffect _ _ => false
  | .qtailWrite _ _ => false
  | .commandNop _ => false
  | .commandLaunch _ => false
  | .commandReplay _ => false
  | .queueStarvationTimeout _ => false
  | .windowFreeAdmit _ => false
  | .blockPlace _ _ => false
  | .caravanPlace _ _ => false
  | .blockWaitTimeout _ _ => false
  | .caravanWaitTimeout _ _ => false
  | .nodeKernel _ _ => false
  | .nodeCellar _ _ => false
  | .nodeCopy _ _ => false
  | .nodeHostwait _ _ => false
  | .nodeCond _ _ => false
  | .nodeEvent _ _ => false
  | .nodeComplete _ _ => false
  | .rheadWrite _ _ => false
  | .eventRecordWrite _ => false
  | .ringCoalesceTimeout _ => false
  | .pctlPreWrite _ => false
  | .partitionHalted _ => false
  | .shadowSaveDone _ => false
  | .drainDone _ => false
  | .pctlResumeWrite _ => false
  | .restoreDone _ => false
  | .xareleaseWrite _ => false
  | .shadowwaysWrite _ => false
  | .cmapWrite _ => false
  | .xlstatRfailClear _ => false
  | .registerWrite _ _ => false
  | .atsTranslationCompletion _ _ _ _ _ _ _ => false
  | .atsCompletionTimeout _ _ => false
  | .pageRequestGroupSend => false
  | .prgResponseSuccess _ => false
  | .prgResponseInvalidRequest _ => false
  | .prgResponseFailure _ => false
  | .atsInvalidateRequest _ _ _ => false
  | .regionRequeue _ => false
  | .hostAtomicopCompletion _ _ _ => false
  | .hostFlushReadCompletion _ => false
  | .peerAcknowledge _ => false
  | .hostBar2Read _ _ => false
  | .hostBar2Write _ _ => false
  | .peerAccessIn _ => false
  | .cellarJobStart _ => false
  | .cellarDot _ => false
  | .cellarSegsum _ => false
  | .cellarAdamw _ => false
  | .cellarRapply _ _ => false
  | .cellarFill _ => false
  | .cellarJobComplete _ => false
  | .sequenceEntryFree _ => false
  | .powerOnReset => false
  | .attcmdWrite _ => false
  | .attestationReport => false
  | .linkPortStateChange _ _ => false
  | .linkFlitReplay _ => false
  | .uncorrectableError _ => false
  | .correctableError => false
  | .clusterFailure _ => false
  | .cellarUnitFailure _ => false
  | .dramRowFailure _ => false
  | .l2WayFailure => false
  | .snapInEdge => false
  | .snaptrigWrite _ => false
  | .snapctlFullClear => false
  | .snapOutRelease => false
  | .plimitWrite _ => false
  | .throttleStepDown _ => false
  | .throttleRestore _ => false
  | .thermalTrip => false
  | .hardwarePrefetch _ _ _ => false
  | .mergeTableAgeHold => false
  | .hostPeerLoadCompletion _ => false

/-- Step 2 of R202 but for the pack's register allocation: every operand of its kind, every field legal. -/
def Instr.wellFormed (i : Instr) : Bool := i.operands.all Operand.ok && i.fieldsOk

/-- One more than the highest vector register the instruction names (R69). -/
def Instr.vtop (i : Instr) : Nat := (i.operands.map Operand.vtop).foldl max 0

/-- Whether an instruction is a synchronising operation of a `.det` launch (R362). -/
def Instr.sync : Instr → Bool
  | .atom .. => true | .acas .. => true | .fatom .. => true | .ispl .. => true | .hins .. => true
  | .barr .. => true | .binit .. => true | .bjoin .. => true | .bleave .. => true | .cpyr .. => true
  | .dsync .. => true | .nlaunch .. => true | .post .. => true
  | _ => false
/-- Legal only in the privileged handler (R201). -/
def Instr.privOnly : Instr → Bool
  | .psrd .. => true | .pswr .. => true | .halt .. => true | .snap .. => true | .prft .. => true
  | _ => false

/-- The counters' index (R219). -/
def KCls.ix (k : KCls) : Nat := k.code.toNat
end Sys2Proof
end

