-- ==== Sys2Proof/Machine/Float.lean ====
section
/-!
DEFINITION. Exact real arithmetic on floating-point values and the one rounding of each result (R40 to R53, R246 to
R250): a finite value is a sign, a natural mantissa and a power of two.
-/
namespace Sys2Proof.Machine
open Sys2Proof

/-- A value read from a floating-point format, or an exact result: NaN, an infinity, or ±m·2^e with the sign of zero
kept (R42). -/
inductive FVal where
  | nan
  | inf (neg : Bool)
  | fin (neg : Bool) (m : Nat) (e : Int)
  deriving DecidableEq, Repr

/-- How a format spells infinity and NaN (R40). -/
inductive FKind where
  | ieee | e4m3 | e2m1
  deriving DecidableEq, Repr

/-- A floating-point format (R40, R41): exponent and fraction widths, bias, specials, flushing (R43). -/
structure FFmt where
  eb : Nat
  mb : Nat
  bias : Nat
  kind : FKind
  flush : Bool
  deriving DecidableEq, Repr

def F32 : FFmt := ⟨8, 23, 127, .ieee, false⟩
def F16 : FFmt := ⟨5, 10, 15, .ieee, false⟩
def BF16 : FFmt := ⟨8, 7, 127, .ieee, true⟩
def E5M2 : FFmt := ⟨5, 2, 15, .ieee, false⟩
def E4M3 : FFmt := ⟨4, 3, 7, .e4m3, false⟩
def E2M1 : FFmt := ⟨2, 1, 1, .e2m1, false⟩

/-- The value of a code of a format (R40, R43). -/
def FFmt.read (f : FFmt) (x : Nat) : FVal :=
  let fr := x % 2 ^ f.mb
  let ex := x / 2 ^ f.mb % 2 ^ f.eb
  let neg := x / 2 ^ (f.mb + f.eb) % 2 == 1
  if f.kind = .ieee ∧ ex = 2 ^ f.eb - 1 then (if fr = 0 then .inf neg else .nan)
  else if f.kind = .e4m3 ∧ ex = 15 ∧ fr = 7 then .nan
  else if ex = 0 then .fin neg (if f.flush then 0 else fr) (1 - (f.bias : Int) - f.mb)
  else .fin neg (2 ^ f.mb + fr) ((ex : Int) - f.bias - f.mb)

/-- The canonical NaN code (R41); E2M1 has none and writes +0 (R51). -/
def FFmt.nan (f : FFmt) : Nat :=
  match f.kind with
  | .ieee => (2 ^ f.eb - 1) * 2 ^ f.mb + 2 ^ (f.mb - 1)
  | .e4m3 => 0x7F
  | .e2m1 => 0

/-- The code of the largest finite magnitude (R41). -/
def FFmt.maxCode (f : FFmt) : Nat :=
  match f.kind with
  | .ieee => (2 ^ f.eb - 1) * 2 ^ f.mb - 1
  | .e4m3 => 0x7E
  | .e2m1 => 7

/-- The sign bit of a format. -/
def FFmt.sgn (f : FFmt) (neg : Bool) : Nat := if neg then 2 ^ (f.mb + f.eb) else 0

/-- What a result that would be infinite becomes (R51). -/
def FFmt.writeInf (f : FFmt) (sat neg : Bool) : Nat :=
  match f.kind with
  | .ieee => if sat then f.sgn neg + f.maxCode else f.sgn neg + (2 ^ f.eb - 1) * 2 ^ f.mb
  | .e4m3 => if sat then f.sgn neg + f.maxCode else f.nan
  | .e2m1 => f.sgn neg + f.maxCode

/-- Whether the discarded part `r / 2^sh` above the truncated `n` moves the magnitude up (R50, R53). -/
def roundUp (mode : Rnd) (draw : Nat) (neg : Bool) (n r sh : Nat) : Bool :=
  match mode with
  | .rn => decide (2 ^ sh < 2 * r) || (decide (2 * r = 2 ^ sh) && n % 2 == 1)
  | .rz => false
  | .ru => !neg && decide (0 < r)
  | .rd => neg && decide (0 < r)
  | .sr => decide (2 ^ 32 ≤ r * 2 ^ 32 / 2 ^ sh + draw)

/-- Truncate `m·2^e` to units of `2^q` and round: the number of units. -/
def roundUnits (mode : Rnd) (draw : Nat) (neg : Bool) (m : Nat) (e q : Int) : Nat :=
  if q ≤ e then m * 2 ^ (e - q).toNat
  else
    let sh := (q - e).toNat
    let n := m / 2 ^ sh
    if roundUp mode draw neg n (m % 2 ^ sh) sh then n + 1 else n

/-- Whether a mode sends an overflow to the largest finite value instead of infinity (R51). -/
def awayFromInf (mode : Rnd) (neg : Bool) : Bool :=
  match mode with
  | .rz => true | .ru => neg | .rd => !neg | .rn => false | .sr => false

/-- ±m·2^e rounded once to a format: the code (R43, R50, R51, R53). -/
def FFmt.round (f : FFmt) (mode : Rnd) (sat : Bool) (draw : Nat) (neg : Bool) (m : Nat) (e : Int) : Nat :=
  if m = 0 then f.sgn neg
  else
    let l := (Nat.log2 m : Int) + e
    let emin : Int := 1 - (f.bias : Int)
    let q0 := l - f.mb
    let q := if f.flush then q0 else max q0 (emin - f.mb)
    let n := roundUnits mode draw neg m e q
    let carry := n == 2 ^ (f.mb + 1)
    let n' := if carry then 2 ^ f.mb else n
    let q' := if carry then q + 1 else q
    if n' < 2 ^ f.mb then f.sgn neg + n'
    else
      let ex := q' + f.mb + f.bias
      if ex < 1 then f.sgn neg
      else
        let code := ex.toNat * 2 ^ f.mb + (n' - 2 ^ f.mb)
        if f.maxCode < code then
          (if awayFromInf mode neg then f.sgn neg + f.maxCode else f.writeInf sat neg)
        else f.sgn neg + code

/-- An exact result written in a format (R50, R51). -/
def FFmt.write (f : FFmt) (mode : Rnd) (sat : Bool) (draw : Nat) : FVal → Nat
  | .nan => f.nan
  | .inf neg => f.writeInf sat neg
  | .fin neg m e => f.round mode sat draw neg m e

/-- The FP32 value of 32 bits. -/
def f32 (x : W32) : FVal := F32.read x.toNat
/-- RNE32 of an exact result. -/
def rne32 (v : FVal) : W32 := BitVec.ofNat 32 (F32.write .rn false 0 v)

/-- The signed integer ±m·2^(e - q), for q ≤ e. -/
def scaled (neg : Bool) (m : Nat) (e q : Int) : Int :=
  let n : Int := (m * 2 ^ (e - q).toNat : Nat)
  if neg then -n else n

/-- The exact value of an integer times 2^e, +0 when it is 0. -/
def ofInt (i : Int) (e : Int) : FVal := .fin (decide (i < 0)) i.natAbs e

/-- The exact sum; an exact zero sum of unlike signs is +0, or -0 under RD (R245). -/
def fAdd (mode : Rnd) : FVal → FVal → FVal
  | .nan, _ => .nan
  | .inf _, .nan => .nan
  | .fin _ _ _, .nan => .nan
  | .inf a, .inf b => if a = b then .inf a else .nan
  | .inf a, .fin _ _ _ => .inf a
  | .fin _ _ _, .inf b => .inf b
  | .fin na ma ea, .fin nb mb eb =>
    let q := min ea eb
    let s := scaled na ma ea q + scaled nb mb eb q
    if s = 0 then .fin (if na = nb ∧ ma = 0 ∧ mb = 0 then na else mode == .rd) 0 0
    else ofInt s q

/-- The value negated. -/
def fNeg : FVal → FVal
  | .nan => .nan | .inf n => .inf (!n) | .fin n m e => .fin (!n) m e
/-- The magnitude. -/
def fAbs : FVal → FVal
  | .nan => .nan | .inf _ => .inf false | .fin _ m e => .fin false m e

/-- The exact product; 0 times infinity is NaN (R245). -/
def fMul : FVal → FVal → FVal
  | .nan, _ => .nan
  | .inf _, .nan => .nan
  | .fin _ _ _, .nan => .nan
  | .inf a, .inf b => .inf (a != b)
  | .inf a, .fin b m _ => if m = 0 then .nan else .inf (a != b)
  | .fin a m _, .inf b => if m = 0 then .nan else .inf (a != b)
  | .fin a ma ea, .fin b mb eb => .fin (a != b) (ma * mb) (ea + eb)

/-- The exact a·b + c. -/
def fFma (mode : Rnd) (a b c : FVal) : FVal := fAdd mode (fMul a b) c

/-- The bits of a quotient or root beyond what any format holds, plus a sticky bit: exact for rounding. -/
def guardBits : Nat := 96

/-- The quotient of two values, correctly roundable: a mantissa of at least `guardBits` bits with a sticky last bit. -/
def fDiv : FVal → FVal → FVal
  | .nan, _ => .nan
  | .inf _, .nan => .nan
  | .fin _ _ _, .nan => .nan
  | .inf _, .inf _ => .nan
  | .inf a, .fin b _ _ => .inf (a != b)
  | .fin a _ _, .inf b => .fin (a != b) 0 0
  | .fin a ma ea, .fin b mb eb =>
    if mb = 0 then (if ma = 0 then .nan else .inf (a != b))
    else
      let k := guardBits + Nat.log2 mb
      let n := ma * 2 ^ k
      .fin (a != b) (2 * (n / mb) + (if n % mb = 0 then 0 else 1)) (ea - eb - k - 1)

/-- The integer square root, one bit at a time from bit `i - 1` down. -/
def isqrtFrom (n : Nat) : Nat → Nat → Nat
  | 0, r => r
  | i + 1, r => let t := r + 2 ^ i; isqrtFrom n i (if t * t ≤ n then t else r)
/-- The integer square root. -/
def isqrt (n : Nat) : Nat := isqrtFrom n (Nat.log2 n / 2 + 1) 0

/-- The square root, correctly roundable (R248). -/
def fSqrt : FVal → FVal
  | .nan => .nan
  | .inf neg => if neg then .nan else .inf false
  | .fin neg m e =>
    if m = 0 then .fin neg 0 0
    else if neg then .nan
    else
      let e' := if e % 2 = 0 then e else e - 1
      let m' := if e % 2 = 0 then m else 2 * m
      let n := m' * 2 ^ (2 * guardBits)
      let r := isqrt n
      .fin false (2 * r + (if r * r = n then 0 else 1)) (e' / 2 - guardBits - 1)

/-- 1/a (R248). -/
def fRcp (a : FVal) : FVal := fDiv (.fin false 1 0) a

/-- 1/√a, correctly roundable (R248): -0 gives -∞. -/
def fRsq : FVal → FVal
  | .nan => .nan
  | .inf neg => if neg then .nan else .fin false 0 0
  | .fin neg m e =>
    if m = 0 then .inf neg
    else if neg then .nan
    else
      let e' := if e % 2 = 0 then e else e - 1
      let m' := if e % 2 = 0 then m else 2 * m
      let k := 2 * (guardBits + Nat.log2 m')
      let t := 2 ^ k / m'
      let r := isqrt t
      .fin false (2 * r + (if r * r * m' = 2 ^ k then 0 else 1)) (-(e' / 2) - k / 2 - 1)

/-- Binary places of the fixed-point evaluations below: far beyond the distance of any FP32 result from a rounding
boundary. -/
def fixBits : Nat := 256
/-- ⌊ln 2 · 2^256⌋. -/
def ln2Fix : Nat := 0xb17217f7d1cf79abc9e3b39803f2f6af40f343267298b62d8a0d175b8baafa2b

/-- The sum of x^i/i! in fixed point, `n` more terms from term `t` of index `i`. -/
def expSeries (x : Nat) : Nat → Nat → Nat → Nat → Nat
  | 0, _, _, acc => acc
  | n + 1, i, t, acc => let t' := t * x / 2 ^ fixBits / i; expSeries x n (i + 1) t' (acc + t')
/-- 2^f in fixed point for 0 ≤ f < 2^256 read as a fraction. -/
def exp2Frac (f : Nat) : Nat := expSeries (f * ln2Fix / 2 ^ fixBits) 64 1 (2 ^ fixBits) (2 ^ fixBits)

/-- 2^a, correctly roundable (R248). -/
def fExp2 : FVal → FVal
  | .nan => .nan
  | .inf neg => if neg then .fin false 0 0 else .inf false
  | .fin neg m e =>
    if m = 0 then .fin false 1 0
    else if 8 ≤ (Nat.log2 m : Int) + e then (if neg then .fin false 1 (-400) else .fin false 1 400)
    else
      let a := scaled neg m (e + fixBits) 0
      let a := if e + fixBits < 0 then (if neg then -1 else 1) else a
      let n := a / (2 ^ fixBits : Nat)
      let f := (a % (2 ^ fixBits : Nat)).toNat
      if f = 0 then .fin false 1 n
      else .fin false (2 * exp2Frac f + 1) (n - fixBits - 1)

/-- The sum of z^(2i+1)/(2i+1) in fixed point. -/
def atanhSeries (z2 : Nat) : Nat → Nat → Nat → Nat → Nat
  | 0, _, _, acc => acc
  | n + 1, i, t, acc => let t' := t * z2 / 2 ^ fixBits; atanhSeries z2 n (i + 2) t' (acc + t' / i)

/-- log₂ a, correctly roundable (R248). -/
def fLog2 : FVal → FVal
  | .nan => .nan
  | .inf neg => if neg then .nan else .inf false
  | .fin neg m e =>
    if m = 0 then .inf true
    else if neg then .nan
    else
      let l := Nat.log2 m
      let k := (l : Int) + e
      if m = 2 ^ l then (if k = 0 then .fin false 0 0 else ofInt k 0)
      else
        let z := (m - 2 ^ l) * 2 ^ fixBits / (m + 2 ^ l)
        let s := atanhSeries (z * z / 2 ^ fixBits) 90 3 z z
        let lg : Int := (2 * s * 2 ^ fixBits / ln2Fix : Nat)
        ofInt (2 * (k * (2 ^ fixBits : Nat) + lg) + 1) (-fixBits - 1)

/-- ±m·2^e rounded to an integer in a mode (R52, R53 with u = 1, R249). -/
def roundInt (mode : Rnd) (draw : Nat) (neg : Bool) (m : Nat) (e : Int) : Int :=
  let n : Int := (roundUnits mode draw neg m e 0 : Nat)
  if neg then -n else n

/-- A value rounded to an integral value of the same sign (R249). -/
def fRnd (mode : Rnd) : FVal → FVal
  | .nan => .nan
  | .inf n => .inf n
  | .fin n m e => .fin n (roundUnits mode 0 n m e 0) 0

/-- IEEE 754 order of two values: `none` when unordered (R64, R247). -/
def fCmp : FVal → FVal → Option Ordering
  | .nan, _ => none
  | .inf _, .nan => none
  | .fin _ _ _, .nan => none
  | .inf a, .inf b => some (if a = b then .eq else if a then .lt else .gt)
  | .inf a, .fin _ _ _ => some (if a then .lt else .gt)
  | .fin _ _ _, .inf b => some (if b then .gt else .lt)
  | .fin na ma ea, .fin nb mb eb =>
    let q := min ea eb
    some (compare (scaled na ma ea q) (scaled nb mb eb q))

/-- Total order used by FMIN and FMAX on non-NaN values, -0 below +0 (R246). -/
def fBelow (a b : FVal) : Bool :=
  match fCmp a b with
  | some .lt => true
  | some .eq => (match a, b with | .fin na 0 _, .fin nb 0 _ => na && !nb | _, _ => false)
  | _ => false

/-- FMIN (R246). -/
def fMin (a b : FVal) : FVal :=
  match a, b with
  | .nan, b => b
  | a, .nan => a
  | a, b => if fBelow b a then b else a
/-- FMAX (R246). -/
def fMax (a b : FVal) : FVal :=
  match a, b with
  | .nan, b => b
  | a, .nan => a
  | a, b => if fBelow a b then b else a

/-- The class mask of FCLASS (R250). -/
def fClass (x : W32) : W32 :=
  let ex := x.toNat / 2 ^ 23 % 256
  let fr := x.toNat % 2 ^ 23
  let neg := x.toNat / 2 ^ 31 == 1
  if ex = 255 then (if fr = 0 then (if neg then 1 else 128) else 256)
  else if ex = 0 then (if fr = 0 then (if neg then 8 else 16) else (if neg then 4 else 32))
  else (if neg then 2 else 64)

/-- The nearest integer to n/d, ties to even. -/
def nearestDiv (n d : Nat) : Nat :=
  let q := n / d
  let r := n % d
  if 2 * r > d ∨ (2 * r = d ∧ q % 2 = 1) then q + 1 else q
/-- The nearest integer to an integer over a positive natural, ties to even. -/
def nearestDivInt (n : Int) (d : Nat) : Int :=
  if n < 0 then -(nearestDiv n.natAbs d : Int) else nearestDiv n.natAbs d

/-- e^|x| in fixed point, for |x| below 64. -/
def expAbsFix (m : Nat) (e : Int) : Nat :=
  let y := m * 2 ^ (e + fixBits).toNat
  let t := y * 2 ^ fixBits / ln2Fix
  exp2Frac (t % 2 ^ fixBits) * 2 ^ (t / 2 ^ fixBits)

/-- SIG of R63. -/
def sigCode : FVal → Nat
  | .nan => 0
  | .inf neg => if neg then 0 else 65535
  | .fin neg m e =>
    if m = 0 then 32768
    else if 5 ≤ (Nat.log2 m : Int) + e then (if neg then 0 else 65535)
    else
      let ex := expAbsFix m e
      nearestDiv (65535 * (if neg then 2 ^ fixBits else ex)) (2 ^ fixBits + ex)
/-- EQD of R63, for x ≥ 0. -/
def eqdCode : FVal → Nat
  | .nan => 0
  | .inf _ => 0
  | .fin _ m e =>
    if m = 0 then 65535
    else if 5 ≤ (Nat.log2 m : Int) + e then 0
    else nearestDiv (131070 * 2 ^ fixBits) (2 ^ fixBits + expAbsFix m e)

/-- ⌊2^(i/4) · 2^256⌋ for i = 0 to 3. -/
def quarterFix : Nat → Nat
  | 0 => 0x10000000000000000000000000000000000000000000000000000000000000000
  | 1 => 0x1306fe0a31b7152de8d5a46305c85edecbc27343629f502f1af16cb97df4f76df
  | 2 => 0x16a09e667f3bcc908b2fb1366ea957d3e3adec17512775099da2f590b0667322a
  | _ => 0x1ae89f995ad3ad5e8734d1773205a7fbc3ae675ea440b162d6b8275b41cef0533

/-- The magnitude of L6 code k ≥ 1, times 2^260, truncated (R47). -/
def l6Fix (k : Nat) : Nat := quarterFix (k % 4) * 2 ^ (k / 4)

/-- The value of an L6 element with scale code e, correctly roundable to FP32 (R47, R96): NaR reads as NaN. -/
def l6Read (code scale : Nat) : FVal :=
  let k := code % 32
  let neg := code / 32 % 2 == 1
  if scale = 255 then .nan
  else if k = 0 then (if neg then .nan else .fin false 0 0)
  else .fin neg (2 * l6Fix k + (if k % 4 = 0 then 0 else 1)) ((scale : Int) - 127 - 261)

/-- L6TAB (R48). -/
def l6Tab : Nat → Nat
  | 0 => 4096 | 1 => 4871 | 2 => 5793 | _ => 6889
/-- L6PROD (R48). -/
def l6Prod (a ea b eb : Nat) : FVal :=
  let ka := a % 32
  let kb := b % 32
  let sa := a / 32 % 2
  let sb := b / 32 % 2
  if ea = 255 ∨ eb = 255 ∨ (sa = 1 ∧ ka = 0) ∨ (sb = 1 ∧ kb = 0) then .nan
  else if ka = 0 ∨ kb = 0 then .fin false 0 0
  else
    let kp := ka + kb
    .fin (sa != sb) (l6Tab (kp % 4) * 2 ^ (kp / 4)) ((ea : Int) - 127 + ((eb : Int) - 127) - 20)

/-- The largest L6 code whose magnitude is at most the magnitude m·2^e times 2^260 given as `y`; 0 below code 1. -/
def l6Floor (y : Nat) : Nat → Nat
  | 0 => 0
  | k + 1 => if l6Fix (k + 1) ≤ y then k + 1 else l6Floor y k

/-- A magnitude rounded into L6 linearly between adjacent codes, saturating at 31 (R50, R53, R257). -/
def l6Round (mode : Rnd) (draw : Nat) (neg : Bool) (m : Nat) (e : Int) : Nat :=
  let sh := e + 260
  let y := if 0 ≤ sh then m * 2 ^ sh.toNat else m / 2 ^ (-sh).toNat
  let k := l6Floor y 31
  let up :=
    if k = 31 then false
    else
      let lo := if k = 0 then 0 else l6Fix k
      let d := l6Fix (k + 1) - lo
      let r := y - lo
      let whole := decide (0 ≤ sh) || decide (m % 2 ^ (-sh).toNat = 0)
      let exact := decide (m = 0) || (decide (k % 4 = 0) && decide (r = 0) && whole)
      match mode with
      | .rn => decide (d < 2 * r) || (decide (2 * r = d) && k % 2 == 1)
      | .rz => false
      | .ru => !neg && !exact
      | .rd => neg && !exact
      | .sr => decide (2 ^ 32 ≤ r * 2 ^ 32 / d + draw)
  let k' := if up then k + 1 else k
  if k' = 0 then 0 else (if neg then 32 else 0) + k'

/-- The signed sum of BLOCKSUM and whether a product was truncated (R56): products finite, not all zero. -/
def blockTerms (q : Int) : List FVal → Int × Bool
  | [] => (0, false)
  | .fin neg m e :: ps =>
    let (s, x) := blockTerms q ps
    if q ≤ e then (s + scaled neg m e q, x)
    else
      let n : Int := (m / 2 ^ (q - e).toNat : Nat)
      (s + (if neg then -n else n), x || decide (m % 2 ^ (q - e).toNat ≠ 0))
  | _ :: ps => blockTerms q ps

/-- The exponent ⌊log₂⌋ of the largest nonzero product; `none` when every product is zero. -/
def blockMax : List FVal → Option Int
  | [] => none
  | .fin _ m e :: ps =>
    if m = 0 then blockMax ps
    else
      let l := (Nat.log2 m : Int) + e
      some (match blockMax ps with | none => l | some x => max l x)
  | _ :: ps => blockMax ps

/-- BLOCKSUM: the accumulator after one block, and whether the block is inexact (R56, R59). -/
def blockSum (acc : W32) (ps : List FVal) : W32 × Bool :=
  let isInf := fun b => ps.any (fun p => p == .inf b)
  if ps.any (· == .nan) || (isInf true && isInf false) then (0x7FC00000, false)
  else if isInf true then (rne32 (fAdd .rn (f32 acc) (.inf true)), false)
  else if isInf false then (rne32 (fAdd .rn (f32 acc) (.inf false)), false)
  else
    match blockMax ps with
    | none =>
      let allNeg := ps.all (fun p => match p with | .fin n _ _ => n | _ => false)
      (rne32 (fAdd .rn (f32 acc) (.fin (allNeg && !ps.isEmpty) 0 0)), false)
    | some l =>
      let (s, x) := blockTerms (l - 41) ps
      (rne32 (fAdd .rn (f32 acc) (ofInt s (l - 41))), x)

/-- The two's complement pattern of an integer in `w` bits. -/
def wrapTo (w : Nat) (x : Int) : Nat := (x % ((2 ^ w : Nat) : Int)).toNat

end Sys2Proof.Machine
end

