-- ==== Sys2Proof/Config.lean ====
section
/-!
DEFINITION. What an implementation or one part fixes (fuses, firmware, keys), and the free values: constants without a
body, so that no proof can see what they are (assumption log 4, 8).
-/
namespace Sys2Proof.Config

/-- The `n`th value of a vector register lane that the spec leaves undefined at launch (R70; log 4). -/
opaque freeV : Nat → BitVec 32
/-- The `n`th value of a scalar or scratch register that the spec leaves undefined at launch (R70, R381; log 4). -/
opaque freeS : Nat → BitVec 64
/-- The error of an ADC code: added to the ideal code within the bound of R175 (log 4). -/
opaque freeAdc : Nat → Nat
/-- What a reference column reads in a pass, before the converter's clamp, from the array's gains and offsets (R174; log 4). -/
opaque freeRef : Nat → List (BitVec 16) → List (BitVec 16) → Int
/-- A gain or offset that XPROG or XCAL trims (R177, R300; log 4). -/
opaque freeTrim : Nat → BitVec 16
/-- The residual of XCAL, in LSB (R177; log 4). -/
opaque freeResidual : Nat → Nat
/-- The bank slots that a Cellar unit defers for a job while PERMBANKS is below 32 (R418; log 4). -/
opaque freeDefers : Nat → Nat
/-- The permitted bank slots that the thermal controller chooses (R434; log 4). -/
opaque freeBanks : Nat → Nat
/-- Which of the buckets left an HFRAME clears next; the spec gives no order (R112; log 27). -/
opaque freeBucket : Nat → Nat
/-- The way that a full cache set replaces at a CLK: the replacement order is not architectural (R79, R80; log 96). -/
opaque freeWay : Nat → Nat
/-- The set of an L1 that a line maps to, modulo its 64 sets; the spec gives no index function (R79; log 96). -/
opaque l1Set : Nat → Nat
/-- The slice and set of the L2 that a line maps to, modulo 64 · 1,536 (R80; log 96). -/
opaque l2Set : Nat → Nat
/-- The clocks a promise lies after the issue clock (R142; log 4). -/
opaque freePromise : Nat → Nat
/-- A doubleword of a unit's snapshot record: from SNAPCLK, the unit's number, what it latched and the offset in the record, whose
layout the spec does not give (R432; log 42). -/
opaque snapWord : BitVec 64 → Nat → List Nat → Nat → BitVec 64
/-- The bytes of a core image's header (0), pack record (1) or block record (2) with given field values, and the field values that other
bytes there stand for: R390 gives no layout of these records (log 41). -/
opaque recordByte : Nat → List Nat → Nat → BitVec 8
opaque recordField : Nat → List (BitVec 8) → Nat → Nat
/-- The partition that serves a submission queue (log 8). -/
opaque queuePart : Nat → Nat
/-- The cluster that the pre-placed variant of a launch assigns to a block (R352, R353; log 8). -/
opaque variantCluster : BitVec 64 → Nat → Nat
/-- The initial TRAPV of the kernel whose code base this is: the offset of its `.trap` directive, or 0; the launch record carries no
field for it (R205, R307, R350; log 31). -/
opaque trapv : Nat → BitVec 64
/-- The clusters that the fuses pass as good (R428; log 8). -/
opaque fusedClusters : BitVec 72
/-- The cluster mask of R428: exactly 64 of the 72 bits, those of `fusedClusters` first, in ascending order, and those that the repair
record gives as failed last (R430; log 8). -/
def clustenOf (failed : BitVec 72) : BitVec 72 :=
  let all := List.range 72
  let whole := all.filter (fun i => !failed.getLsbD i)
  let order := whole.filter fusedClusters.getLsbD ++ whole.filter (fun i => !fusedClusters.getLsbD i) ++ all.filter failed.getLsbD
  (order.take 64).foldl (fun m i => m ||| (1#72 <<< i)) 0
/-- The cluster mask while no cluster has failed. -/
def clusten : BitVec 72 := clustenOf 0
/-- The fused and repaired crossbar mask of R428, by logical array, for a cluster mask (log 8). -/
opaque badxa : BitVec 72 → BitVec 4096
/-- Whether boot step 2 finds the fuses readable (R427; log 8). -/
opaque fusesOk : Bool
/-- Whether boot step 3 trains the stacks (R427; log 8). -/
opaque dramOk : Bool
/-- Whether a Berwald Link port trains in a boot run (R427; log 8). -/
opaque linkTrains : Nat → Nat → Bool
/-- The LINKID that a port's far end sends in a training (R424; log 8). -/
opaque linkPeer : Nat → Nat → BitVec 8
/-- The firmware image in flash slot A (`false`) or B (`true`) (R427; log 8). -/
opaque firmware : Bool → List (BitVec 8)
/-- The Ed25519 public key and signature that come with the image in a slot, and the fused SHA-512 digest of the key (R427; log 8). -/
opaque fwKey : Bool → BitVec 256
opaque fwSig : Bool → BitVec 512
opaque fusedDigest : BitVec 512
/-- Whether a Cellar unit fails the test of boot step 3 in a boot run (R427; log 8). -/
opaque cellarFails : Nat → Nat → Bool
/-- Version and security version of an image (R427; log 8). -/
opaque fwVersion : Bool → BitVec 16
/-- Security version number of an image (R427; log 8). -/
opaque fwSvn : Bool → BitVec 16
/-- The fused SVN counter (R427; log 8). -/
opaque fusedSvn : BitVec 16
/-- The fused seed that the device's Ed25519 key pair comes from (R429; log 8). -/
opaque seed : BitVec 256

end Sys2Proof.Config
end

