-- ==== Sys2Proof/Machine/Map.lean ====
section
/-!
DEFINITION. Finite maps from natural numbers as lists of pairs with strictly rising keys: the one canonical form that
memory, caches and the other sparse stores of the machine share.
-/
namespace Sys2Proof.Machine

/-- A finite map: key and value pairs, keys strictly rising. -/
abbrev NMap (α : Type) := List (Nat × α)

/-- The value at `k`. -/
def mapGet {α : Type} : NMap α → Nat → Option α
  | [], _ => none
  | (k', v) :: m, k => if k = k' then some v else if k < k' then none else mapGet m k

/-- `m` with `v` at `k`. -/
def mapPut {α : Type} : NMap α → Nat → α → NMap α
  | [], k, v => [(k, v)]
  | (k', v') :: m, k, v =>
    if k < k' then (k, v) :: (k', v') :: m else if k = k' then (k, v) :: m else (k', v') :: mapPut m k v

/-- `m` without `k`. -/
def mapDel {α : Type} : NMap α → Nat → NMap α
  | [], _ => []
  | (k', v') :: m, k => if k < k' then (k', v') :: m else if k = k' then m else (k', v') :: mapDel m k

/-- Keys strictly rising from above `lo`. -/
def mapSorted {α : Type} : Option Nat → NMap α → Bool
  | _, [] => true
  | lo, (k, _) :: m => (match lo with | none => true | some l => decide (l < k)) && mapSorted (some k) m

/-- The canonical form of a map whose unlisted keys read as `d`: keys strictly rising, no entry equal to `d`. -/
def mapWf {α : Type} [DecidableEq α] (d : α) (m : NMap α) : Bool :=
  mapSorted none m && m.all (fun e => !decide (e.2 = d))

/-- The value at `k`, `d` where unlisted. -/
def mapRead {α : Type} (d : α) (m : NMap α) (k : Nat) : α := (mapGet m k).getD d

/-- `m` with `v` at `k`, in canonical form: writing `d` removes the entry. -/
def mapWrite {α : Type} [DecidableEq α] (d : α) (m : NMap α) (k : Nat) (v : α) : NMap α :=
  if v = d then mapDel m k else mapPut m k v

/-- Element `i` of a list, a default where there is none. -/
def nth {α : Type} (d : α) (l : List α) (i : Nat) : α := l.getD i d

/-- `l` with element `i` replaced by `f` of it. -/
def modNth {α : Type} (l : List α) (i : Nat) (f : α → α) : List α := l.modify i f

end Sys2Proof.Machine
end

