-- ==== Sys2Proof/Machine/State.lean ====
section
/-!
DEFINITION. The state of the DXT-960: everything the spec gives the machine, as plain data, and the state after reset.
-/
namespace Sys2Proof.Machine
open Sys2Proof

/-- Why a step stops the model. -/
inductive Fault where
  /-- Raised by the meaning of an event that cannot happen in this state (no operation of that number, or its
  conditions do not hold). Safe: the part has no such step here. -/
  | notDue (event : String)
  /-- Raised by the meaning of an instruction when the focus names no path inside a clause. Safe: the part issues
  only from a path whose clause has started. -/
  | noPath
  deriving DecidableEq, Repr

/-- Why the model gives an instruction no meaning. -/
inductive Refusal where
  /-- Raised by `exec` for an instruction that has no meaning yet. Safe: nothing can be proved of it. -/
  | notModelled (mnemonic : String)
  deriving DecidableEq, Repr

/-- A path: PC and RPC as code offsets, `none` for the all-ones RPC (R13, R20). -/
structure Path where
  pc : Nat
  mask : Lanes
  rpc : Option Nat
  deriving DecidableEq, Repr

/-- The clause a slot is inside: its header offset and header fields (R186, R373). -/
structure Clause where
  hdr : Nat
  count : Nat
  cls : Cls
  setA : Nat
  setB : Nat
  selB : BitVec 16
  deriving DecidableEq, Repr

/-- Why a slot is blocked (R37, R114, R143, R363). -/
inductive Stall where
  | interlock | full | waitk | slpt | bwait (b : Nat) | collective | mshr | xlate | rel | det | engine | queue | xmv | region
  deriving DecidableEq, Repr

/-- Whether a wait is a block of R37, or one that a rule says blocks the pack or slot (R37, R86, R111, R167, R301, R402). -/
def Stall.blocks : Stall → Bool
  | .interlock => false | .rel => false | .det => false
  | .full => true | .waitk => true | .slpt => true | .bwait _ => true | .collective => true | .mshr => true | .xlate => true
  | .engine => true | .queue => false | .xmv => true | .region => true

/-- A slot of a pack (R13, R31, R33, R34): its path and clause, the instructions issued since it last took its path, its pack's issue
count at its last issue, what it waits for and since when, the port its clause runs on, its pack's issue count when it last issued or took
its path (R36), whether its clause is away from that port while it is blocked (log 105), and how many arrivals of its pack at collectives
came before its own (R27). -/
structure Slot where
  path : Option Path := none
  clause : Option Clause := none
  issued : Nat := 0
  last : Option Nat := none
  stall : Option Stall := none
  since : Nat := 0
  port : Option Nat := none
  seen : Nat := 0
  away : Bool := false
  came : Nat := 0
  deriving DecidableEq, Repr
/-- Whether a slot's path is blocked (R37). -/
def Slot.blocked (sl : Slot) : Bool := match sl.stall with | some w => w.blocks | none => false

/-- A kennel entry (R20) or a trap frame's three records (R373), bit 0 the lowest of record 0. -/
inductive KItem where
  | path (stamp : Nat) (p : Path)
  | join (stamp : Nat) (p : Path) (arr : Lanes)
  | frame (bits : BitVec 384)
  deriving DecidableEq, Repr

/-- The open restart section of a pack (R168). -/
structure Section where
  label : Nat
  mask : Lanes
  rpc : Option Nat
  depth : Nat
  lclk : W64
  deriving DecidableEq, Repr

/-- One line of the region store buffer: 64 bytes by offset, those written listed (R405). -/
structure RLine where
  addr : Nat
  bytes : NMap (BitVec 8)
  deriving DecidableEq, Repr

/-- The open idempotent region of a pack (R404); after an abort, the addresses whose translations it waited for. -/
structure Region where
  pc : Nat
  mask : Lanes
  rpc : Option Nat
  depth : Nat
  lclk : W64
  lines : List RLine
  aborted : Bool
  wants : List (Nat × Bool) := []
  deriving DecidableEq, Repr

/-- An imprecise fault waiting for the issuing path's next clause header (R134, R407) or a late courier (R143); one that is taken where a
slot stands names the slot, and waits for what comes before it (R143, R301, R374). -/
structure Pending where
  cause : Nat
  info : W64
  lanes : Lanes
  slot : Option Nat := none
  deriving DecidableEq, Repr

/-- A pack (R6, R13, R70, R148, R307, R381): `lastOn` keeps CLK, slot and PC of its last issue on each port (R432), `yielded` while
YIELD keeps it from the next free port (R217), `uncounted` while the count of R35 waits for its next issue (R355), `rewritten` when PSWR
has written its privileged frame (R382), `image` the fields of its record in the saved image of its core (R390). -/
structure Pack where
  launch : Nat
  block : Nat
  pk : Nat
  core : Nat
  quarter : Nat := 0
  retired : Bool := false
  present : Lanes := 0xFFFF
  gang : Bool := true
  lead : Slot := {}
  heel : Slot := {}
  kennel : List KItem := []
  v : List W32 := []
  tags : List Bool := []
  s : List W64 := []
  p : List Lanes := []
  q : List (BitVec 24) := []
  gs : List (Option Bool) := []
  fholds : List Nat := []
  k : List Nat := []
  stamp : Nat := 0
  last : Nat := 0
  lastOn : NMap (Nat × Nat × Nat) := []
  forced : Bool := false
  yielded : Bool := false
  uncounted : Bool := false
  lclk : W64 := 0
  beta : W32 := 0x7F800000
  seed : W64 := 0
  trapv : W64 := 0
  trapc : W64 := 0
  trapa : W64 := 0
  xbnd : W64 := 0
  sect : Option Section := none
  region : Option Region := none
  refs : List (BitVec 32) := []
  pcause : W64 := 0
  pinfo : W64 := 0
  pscr : List W64 := []
  rewritten : Bool := false
  pending : List Pending := []
  stopped : Bool := false
  image : List Nat := []
  deriving DecidableEq, Repr

/-- A barrier (R148). -/
structure Bar where
  expect : Nat := 0
  arr : Nat := 0
  phase : BitVec 32 := 0
  deriving DecidableEq, Repr

/-- A grid-descriptor slot: the record and its home address (R93). -/
structure DSlot where
  raw : BitVec 512
  home : Nat
  deriving DecidableEq, Repr

/-- An accumulator tile: elements at 64·row + column that are not +0, and its status bits (R155). -/
structure Tile where
  el : NMap W32 := []
  inexact : Bool := false
  tagB : Bool := false
  lost : Bool := false
  deriving DecidableEq, Repr

/-- A resident block or caravan (R7, R11, R73, R93, R148, R155); `quart` gives the quarter of each logical pack (R6), `image` the
fields of its record in the saved image of its core (R390). -/
structure Block where
  launch : Nat
  b : Nat
  cores : List Nat
  perCore : Nat
  npacks : Nat
  quart : List Nat := []
  retired : Bool := false
  bars : List Bar := []
  slots : List (Option DSlot) := []
  scratch : NMap (BitVec 8) := []
  spoison : NMap Unit := []
  tiles : List Tile := []
  image : List Nat := []
  deriving DecidableEq, Repr

/-- A table binding (R182, R303). -/
structure TBind where
  row : Nat
  wide : Bool
  rows : Nat
  cols : Nat
  deriving DecidableEq, Repr

/-- Where a launch stands (R352, R353, R383). -/
inductive LStat where
  | window | running | ending | retired
  deriving DecidableEq, Repr

/-- An admitted launch (R350 to R354, R381 to R386); `adm` is the CLK of its admission. -/
structure Launch where
  stat : LStat
  queue : Nat
  node : Option (Nat × Nat) := none
  ring : Nat
  part : Nat
  pasid : Nat
  addr : Nat
  raw : BitVec 1024
  grant : BitVec 1024
  args : List W64 := []
  nextBlock : Nat := 0
  adm : Nat := 0
  waitSince : Nat := 0
  reserved : List Nat := []
  tbinds : List (Option TBind) := []
  faults : Nat := 0
  summary : W64 := 0
  failed : Bool := false
  deriving DecidableEq, Repr

/-- Pages translated when an operation issued: 4 KiB virtual page number to physical page number (R402, R403). -/
abbrev PMap := List (Nat × Nat)

/-- One lane's access: lane and virtual address. -/
structure Acc where
  lane : Nat
  va : Nat
  deriving DecidableEq, Repr

/-- One lane of a value-returning atomic (R273, R274). -/
structure AtomLane where
  lane : Nat
  va : Nat
  v : W64
  cmp : W64
  deriving DecidableEq, Repr

/-- Element formats of grid elements and adds (R93, R275). -/
inductive EFmt where
  | f32 | bf16 | f16 | e4m3 | e5m2 | l6
  deriving DecidableEq, Repr

/-- One floating-point add or minimum at the memory side, with its key (R102, R105, R275). -/
structure AddU where
  g : Nat
  k : Nat
  c : Nat
  ph : Nat
  fmt : EFmt
  op : FatOp
  val : W32
  deriving DecidableEq, Repr

/-- A lane of an interpolating instruction: lane, coordinates, point index (R101, R110). -/
structure GLane where
  lane : Nat
  x : List W32
  p : W32 := 0
  deriving DecidableEq, Repr

/-- A part of a reducing copy or RAPPLY job in one 64 KiB region, with its sequence number (R147, R417). -/
structure SeqPart where
  region : Nat
  num : Nat
  applied : Bool
  deriving DecidableEq, Repr

/-- A courier copy after issue (R136 to R147, R287). -/
structure Copy where
  wb : BitVec 512
  out : Bool
  red : Option RFmt
  z : Nat
  org : List Int
  ext : List Nat
  bar : Nat
  guard : Option Nat
  held : Bool
  discarded : Bool
  promise : W64
  late : Bool
  lane : Nat
  stamp : Nat
  parts : List SeqPart
  deriving DecidableEq, Repr

/-- How far a Cellar job has come (R305, R416). -/
inductive JStage where
  | held | queued | running | computed
  deriving DecidableEq, Repr

/-- A Cellar job (R305, R333, R413, R416). -/
structure Job where
  raw : BitVec 512
  bar : Option Nat
  guard : Option Nat
  stage : JStage
  discarded : Bool
  stack : Nat
  order : Nat
  code : Nat
  bag : Nat
  poison : Bool
  deferred : Nat
  unit : Nat
  ring : Nat
  stamp : Nat
  parts : List SeqPart
  deriving DecidableEq, Repr

/-- An MMA after issue (R157 to R167): contributed masks by member, the tile's place, format words and operand offsets, the
scale bytes and whether their registers are tagged B, passes to come, when it became ready, aged past 2,048 clocks. -/
structure MmaOp where
  parts : List (Nat × Lanes)
  tile : Nat
  fa : W64
  fb : W64
  za : Nat
  pa : Nat
  zb : Nat
  pb : Nat
  wb : Bool
  orda : Bool
  ordb : Bool
  sa : List Nat
  sb : List Nat
  tagB : Bool
  passes : Nat
  since : Option Nat
  aged : Bool
  deriving DecidableEq, Repr

/-- What an outstanding operation has still to do. -/
inductive Body where
  /-- LD and SLD: accesses, bytes, first destination, sign extension, scalar destination or not, policy -/
  | load (accs : List Acc) (n dst : Nat) (sx scalar : Bool) (pol : Policy)
  /-- ILD and ILDG -/
  | grid (d : DSlot) (ord : Nat) (grad : Bool) (lanes : List GLane) (dst : Nat)
  /-- HFIND -/
  | hfind (d : DSlot) (lanes : List GLane) (dst : Nat)
  /-- NBR -/
  | nbr (d : DSlot) (lanes : List GLane) (dst : Nat)
  /-- ST and SST: bytes in program order -/
  | store (bytes : List (Nat × BitVec 8)) (alloc : Bool)
  /-- POST: its eight bytes -/
  | post (bytes : List (Nat × BitVec 8))
  /-- ATOM (`some`) and ACAS (`none`) -/
  | atom (op : Option AtomOp) (n dst : Nat) (lanes : List AtomLane)
  /-- FATOM and ISPL (`splat`): adds not yet accepted, and the lines in whose presentation sequence some stand -/
  | adds (us : List AddU) (held splat : Bool) (begun : List Nat)
  /-- CMO over lines of virtual addresses -/
  | cmo (form : CmoForm) (lvl : CmoLevel) (lines : List Nat)
  /-- GDLD: the record as read at issue, its home, and the members that issued together -/
  | gdld (slot : Nat) (raw : BitVec 512) (va : Nat) (packs : List Nat)
  /-- PREF: the lines asked for, into the L2 only (`l2`) or the L1 -/
  | pref (l2 : Bool) (lines : List Nat)
  | hins (d : DSlot) (lanes : List GLane) (dst : Nat)
  /-- HFRAME: the lowest lane of its path and, once its step is applied, the buckets cleared so far -/
  | hframe (slot : Nat) (d : DSlot) (packs : List Nat) (sd lane : Nat) (st : Option (List Nat))
  | copy (c : Copy)
  /-- a reservation entry of an engine: the MMA itself -/
  | mma (m : MmaOp)
  /-- another member's share of an operation -/
  | mate (main : Nat)
  /-- MZERO: the tile's place among the block's, rows, whether they are all of the team's present lanes -/
  | mzero (tile : Nat) (rows : List Nat) (all : Bool)
  /-- MLDA: rows with their addresses, scratchpad or global, `.B`, whether they are all of the team's present lanes -/
  | mlda (tile : Nat) (rows : List (Nat × Nat)) (scr bt all : Bool)
  | msta (tile : Nat) (rows : List (Nat × Nat)) (scr bf : Bool) (sd : Nat)
  | wbld (src off len : Nat)
  /-- XPROG: the master copy as read and checked at issue, and whether it was poisoned -/
  | xprog (arr va : Nat) (w : List (BitVec 4)) (scale : List W32) (m : List Nat) (poison : Bool)
  /-- XMV: inputs, first destination, whether every input is E, the slot it blocks, the members that issued together -/
  | xmv (arr : Nat) (x : List (BitVec 8)) (dst : Nat) (allE : Bool) (slot : Nat) (packs : List Nat)
  | xcal (arr sd : Nat)
  | xref (arr : Nat) (x : List (BitVec 8)) (dst : Nat)
  | tbind (slot : Nat) (b : TBind) (src : Nat)
  /-- TQ and TQM: lanes with the entry numbers of their four bytes -/
  | tq (b : TBind) (lanes : List (Nat × List Nat)) (dst : Nat)
  | job (j : Job)
  deriving DecidableEq, Repr

/-- An outstanding operation (R113, R114, R189); `grp` is the first operation of the issue that made it. `fwd` is what its pack's open
region had buffered when it issued, by virtual address; `vbytes` what the region buffers of a store, by virtual address (R115, R222,
R405); `bad` the lanes and addresses of an atomic or HINS that have read poison (R407); `acted` an operation of a crossbar array that has done
all but its decrement (R178, R388). -/
structure Op where
  id : Nat
  grp : Nat := 0
  pack : Option Nat
  launch : Nat
  node : Option (Nat × Nat) := none
  k : Option KCls
  flag : Nat := 15
  done : Bool := false
  dv : List Nat := []
  ds : List Nat := []
  tr : PMap := []
  shut : List (Nat × Nat) := []
  fwd : List (Nat × BitVec 8) := []
  vbytes : List (Nat × BitVec 8) := []
  bad : List (Nat × Nat) := []
  acted : Bool := false
  body : Body
  deriving DecidableEq, Repr

/-- A valid word of the L2: clean, its value the DRAM's, or dirty (R80, R82, R115). -/
inductive L2Word where
  | clean | dirty (val : W32)
  deriving DecidableEq, Repr

/-- An open held-add window of a line (R105, R106, R366). -/
structure Window where
  launch : Nat
  det : Bool
  batch : List AddU
  intr : List AddU
  deriving DecidableEq, Repr

/-- Memory and its caches. `ram` holds DRAM at stack·2^36 + offset and outside memory at 2^60 + address, canonical, an
unlisted byte reading 0; the others are keyed by word (address div 4) or line (address div 128). -/
structure MemSys where
  ram : List Host.Cell := []
  poison : NMap Unit := []
  l2 : NMap L2Word := []
  owner : NMap Nat := []
  l1 : NMap W32 := []
  windows : NMap Window := []
  deriving DecidableEq, Repr

/-- The state of a crossbar array (R173). -/
inductive XState where
  | empty | busy | ready | stale
  deriving DecidableEq, Repr

/-- A crossbar array: tenant, state, master-copy address and contents at programming, the gain and offset of each of its 512
columns, and whether the master copy was poisoned (R171 to R173, R177, R407). -/
structure XArr where
  pasid : Nat
  st : XState
  va : Nat
  w : List (BitVec 4)
  scale : List W32
  m : List Nat
  gain : List (BitVec 16) := []
  offs : List (BitVec 16) := []
  poison : Bool := false
  deriving DecidableEq, Repr

/-- A translation cache (R394). -/
inductive Tc where
  | l1 (core : Nat) | courier (core : Nat) | engine (e : Nat) | cellar (stack : Nat) | l2
  deriving DecidableEq, Repr

/-- A cached translation (R394, R395). -/
structure Tlb where
  tc : Tc
  pasid : Nat
  base : Nat
  size : Nat
  tbase : Nat
  r : Bool
  w : Bool
  deriving DecidableEq, Repr

/-- What a merge entry waits for (R396, R397, R400). -/
inductive MState where
  | ats | pri | failed | untr
  deriving DecidableEq, Repr

/-- An entry of the merge table (R396): whether its request asks for write permission, the waiters and those of them that write, the
caches they fill (R397), and the permission of a page that is accessed untranslated (R395). -/
structure Merge where
  pasid : Nat
  page : Nat
  write : Bool
  waiters : List Nat
  st : MState
  tries : Nat
  since : Nat
  part : Nat
  writers : List Nat := []
  tcs : List Tc := []
  perm : Bool × Bool := (false, false)
  deriving DecidableEq, Repr

/-- A page-request group (R399): `formed` once every other translation of its operation has been answered; `rest` marks what is left of a
group larger than the whole allowance. -/
structure Group where
  who : Nat
  index : Option Nat
  pages : List (Nat × Nat × Bool)
  part : Nat
  rest : Bool := false
  formed : Bool := false
  deriving DecidableEq, Repr

/-- An invalidation not yet acknowledged (R403). -/
structure Inval where
  pasid : Nat
  base : Nat
  size : Nat
  deriving DecidableEq, Repr

/-- A submission queue (R347, R348). -/
structure Queue where
  base : W64 := 0
  ctl : W64 := 0
  tail : BitVec 32 := 0
  head : BitVec 32 := 0
  running : Nat := 0
  since : Option Nat := none
  starved : Bool := false
  deriving DecidableEq, Repr

/-- An event ring (R367, R369). -/
structure Ring where
  base : W64 := 0
  ctl : W64 := 0
  coal : W64 := 0
  tail : BitVec 32 := 0
  head : BitVec 32 := 0
  count : Nat := 0
  first : Option Nat := none
  deriving DecidableEq, Repr

/-- A record produced for a ring and not yet written, with the EVENT node that its writing completes (R357, R367). -/
structure Record where
  ring : Nat
  bits : BitVec 256
  node : Option (Nat × Nat) := none
  deriving DecidableEq, Repr

/-- A partition's registers (R379, R401) and the counter of R366. -/
structure Part where
  phbase : W64 := 0
  ptrapv : BitVec 32 := 0
  pfault : W64 := 0
  pfidx : BitVec 32 := 0
  psave : W64 := 0
  drain : Bool := false
  haltclk : BitVec 32 := 0
  state : BitVec 2 := 0
  preAt : Nat := 0
  halted : Bool := false
  intrude : BitVec 32 := 0
  rfail : Bool := false
  outreq : Nat := 0
  groups : Nat := 0
  atsreq : Nat := 0
  deriving DecidableEq, Repr

/-- What the device has sent to the outside (its record; what only the outside observes). -/
inductive Sent where
  | ats (pasid page : Nat) (write : Bool)
  | group (index : Nat) (pages : List (Nat × Nat × Bool))
  | invalDone (pasid base size : Nat)
  | msix (vec : Nat)
  | flush
  | atomicOp (va n : Nat)
  | peer (port : Nat) (addr : Nat)
  | readData (bytes : List (BitVec 8))
  | unsupported
  | snapOut (low : Bool)
  deriving DecidableEq, Repr

/-- How far a graph node has come: `acted` when its action is over, `done` when its edges have gone out (R359). -/
inductive NStat where
  | idle | ready | running | acted | done
  deriving DecidableEq, Repr

/-- A node of a replay instance with its copied record (R356, R360). -/
structure Node where
  raw : BitVec 512
  arg : BitVec 1024
  count : Nat
  stat : NStat
  status : Nat
  taken : Option Nat
  deriving DecidableEq, Repr

/-- A replay (R359, R360); `fault` is the FAULT field of its completion record (R426). -/
structure Replay where
  queue : Nat
  pasid : Nat
  object : Nat
  header : BitVec 512
  nodes : List Node
  started : Bool
  finished : Bool
  status : Nat
  fault : W64 := 0
  deriving DecidableEq, Repr

/-- A request to peer memory that a failed port has sent back, to be replayed on the port that then serves its page: its operation, the
page by key and the window that led to it (R426). -/
structure Relay where
  op : Nat
  page : Nat
  win : Nat
  deriving DecidableEq, Repr

/-- Berwald Link, boot, health, snapshot and power registers (R422 to R434), with the repair record: the physical clusters and the Cellar
units that have failed (R427, R430), and the entry that each matrix engine has granted a pass last (R432). -/
structure DevRegs where
  linkstat : List W64 := []
  linkid : BitVec 8 := 0
  peerwin : List W64 := []
  relays : List Relay := []
  bootstat : W64 := 0
  clusten : BitVec 72 := Config.clusten
  badxa : BitVec 4096 := Config.badxa Config.clusten
  repair : BitVec 72 := 0
  defsig : W64 := 0
  attBusy : Bool := false
  attAddr : Nat := 0
  replace : Bool := false
  reason : BitVec 7 := 0
  reasons : BitVec 8 := 0
  spares : Nat := 0
  uecount : Nat := 0
  cecount : Nat := 0
  softTimes : List Nat := []
  hvec : BitVec 16 := 0
  sparesUsed : List Nat := []
  deadUnits : List Nat := []
  badUnits : List Nat := []
  fenced : List Nat := []
  waysOff : Nat := 0
  snapctl : W64 := 0
  snapclk : W64 := 0
  snaps : List (Nat × List Nat) := []
  snapLow : Option Nat := none
  inPass : NMap Nat := []
  plimit : BitVec 16 := 2000
  pwr : BitVec 32 := 0
  temp : W64 := 0
  thrclk : BitVec 32 := 0
  thrAt : Nat := 0
  hotAt : Nat := 0
  clkn : Nat := 16
  tripped : Bool := false
  ways : BitVec 4 := 0
  affgib : BitVec 6 := 1
  defers : List (BitVec 32) := []
  perm : List Nat := []
  allowance : Nat := 1
  groupIx : Nat := 511
  atomicEn : Bool := false
  bar2 : Nat := 0
  deriving DecidableEq, Repr

/-- A rejected load: pack, slot, CLK of its first rejection, the ranges it touches (R86, R87). -/
structure Reject where
  pack : Nat
  slot : Nat
  since : Nat
  foot : List (Nat × Nat)
  deriving DecidableEq, Repr

/-- A lookup the merge table turned away: waiter, PASID, page, CLK of its first rejection (R396). -/
structure Turned where
  who : Nat
  pasid : Nat
  page : Nat
  since : Nat
  deriving DecidableEq, Repr

/-- Waiting for MSHRs and merge entries, oldest first (R85 to R87, R396), and the cores (256: the merge table) that hold
every freed entry for the oldest. -/
structure Mshr where
  rejected : List Reject := []
  turned : List Turned := []
  held : List Nat := []
  deriving DecidableEq, Repr

/-- An event at a barrier in the present clock: block and barrier, its kind in the order of R291 (0 BINIT, 1 BJOIN and BLEAVE, 2 an arrival of
a pack, 3 one of a courier) and its logical pack. -/
structure BarAct where
  block : Nat
  bar : Nat
  kind : Nat
  pk : Nat
  deriving DecidableEq, Repr

/-- Something the outside has made due: a unit's event, an issue turn, the clock reaching a count, a write by the host
to its own memory, the host granting page requests or AtomicOps (R398, R134); `together` puts what comes next into the same clock. -/
inductive Act where
  | unit (i : Instr)
  | issue (p slot : Nat)
  | clock (n : Nat)
  | hostMem (addr : Nat) (bytes : List (BitVec 8))
  | allow (n : Nat)
  | atomicEnable (b : Bool)
  | bar2 (base : Nat)
  | sense (mw : BitVec 32) (temp : W64)
  | together
  deriving DecidableEq, Repr

/-- The state of the device. `shadow` lists the partitions that use the shadow storage, the one it serves first, `true` for a
restore (R389); a stopped pack's record in `packs` holds the parts of its saved image that have no layout (R390; log 41). `splits`
gives each core's scratchpad size in units of 32 KiB (R72), `wpoison` lists the poisoned words of the weight buffers (R407), and
`barActs` what has reached barriers in the present clock (R291). -/
structure State where
  clk : W64
  packs : List Pack
  blocks : List Block
  launches : List Launch
  ops : List Op
  mem : MemSys
  wbuf : NMap (BitVec 8)
  wpoison : NMap Unit
  arrays : NMap XArr
  tlbs : List Tlb
  merges : List Merge
  groups : List Group
  invals : List Inval
  mshr : Mshr
  seqs : NMap (Nat × Nat × Nat)
  queues : List Queue
  rings : List Ring
  records : List Record
  parts : List Part
  shadow : List (Nat × Bool)
  splits : NMap Nat
  replays : List Replay
  dev : DevRegs
  sent : List Sent
  lastQueue : Nat
  nextOp : Nat
  fresh : Nat
  agenda : List Act
  barActs : List BarAct
  focus : Nat × Nat
  deriving DecidableEq, Repr

/-- The value a byte of `ram` that nothing has written reads as: boot step 3 writes every DRAM word zero (R427);
outside memory reads 0 (log 5). -/
def ramDefault : BitVec 8 := 0

/-- The canonical form of the memory: addresses strictly rising, no entry equal to what an unlisted address reads as. -/
def Memory.wf (m : List Host.Cell) : Bool := mapWf ramDefault m

/-- The machine right after power-on reset, before the boot processor has run (R347, R367, R379, R401, R411, R418, R424
to R434). -/
def State.reset : State where
  clk := 0
  packs := []
  blocks := []
  launches := []
  ops := []
  mem := {}
  wbuf := []
  wpoison := []
  arrays := []
  tlbs := []
  merges := []
  groups := []
  invals := []
  mshr := {}
  seqs := []
  queues := List.replicate 64 {}
  rings := List.replicate 16 {}
  records := []
  parts := List.replicate 4 {}
  shadow := []
  splits := []
  replays := []
  dev := { linkstat := List.replicate 12 0, peerwin := List.replicate 16 0,
           sparesUsed := List.replicate 8 0, defers := List.replicate 8 0, perm := List.replicate 8 32 }
  sent := []
  lastQueue := 63
  nextOp := 0
  fresh := 0
  agenda := []
  barActs := []
  focus := (0, 0)

end Sys2Proof.Machine
end

