-- ==== Sys2Proof/Machine/Mem.lean ====
section
/-!
DEFINITION. The named operations over registers and memory: packs and slots, launch-record fields, bytes of DRAM and of
the outside, the L2 and L1 (R79 to R92), registration and ownership (R115, R116), held-add windows (R104 to R108).
-/
namespace Sys2Proof.Machine
open Sys2Proof

/-- Bits [lo + n - 1 : lo] of a record as a number. -/
def bitsAt {w : Nat} (x : BitVec w) (lo n : Nat) : Nat := (x.extractLsb' lo n).toNat
/-- The signed value of bits [lo + n - 1 : lo]. -/
def sbitsAt {w : Nat} (x : BitVec w) (lo n : Nat) : Int := (x.extractLsb' lo n).toInt
/-- `x` with bits [lo + n - 1 : lo] replaced by `v`. -/
def putBits {w : Nat} (x : BitVec w) (lo n v : Nat) : BitVec w :=
  (x &&& ~~~ (BitVec.ofNat w (2 ^ n - 1) <<< lo)) ||| (BitVec.ofNat w (v % 2 ^ n) <<< lo)
/-- The lanes of a mask, ascending. -/
def lanesOf (m : Lanes) : List Nat := (List.range 16).filter m.getLsbD
/-- The mask of a list of lanes. -/
def maskOf (l : List Nat) : Lanes := l.foldl (fun m i => m ||| (1#16 <<< i)) 0
/-- The mask of the lanes at which a condition holds. -/
def maskWhere (f : Nat → Bool) : Lanes := maskOf ((List.range 16).filter f)
/-- Little-endian bytes of a number (R3). -/
def leBytes (v n : Nat) : List (BitVec 8) := (List.range n).map (fun i => BitVec.ofNat 8 (v / 2 ^ (8 * i)))
/-- The number little-endian bytes spell (R3). -/
def ofBytes : List (BitVec 8) → Nat
  | [] => 0
  | b :: bs => b.toNat + 256 * ofBytes bs

/-- A pack that is not there. -/
def noPack : Pack := { launch := 0, block := 0, pk := 0, core := 0, retired := true }
/-- Pack `p`. -/
def State.pack (s : State) (p : Nat) : Pack := nth noPack s.packs p
/-- `s` with pack `p` changed by `f`. -/
def State.modPack (s : State) (p : Nat) (f : Pack → Pack) : State := { s with packs := modNth s.packs p f }
/-- Slot 0 is the lead slot and slot 1 the heel slot (R13). -/
def Pack.slot (x : Pack) (k : Nat) : Slot := if k = 0 then x.lead else x.heel
/-- `x` with slot `k` changed. -/
def Pack.modSlot (x : Pack) (k : Nat) (f : Slot → Slot) : Pack :=
  if k = 0 then { x with lead := f x.lead } else { x with heel := f x.heel }
/-- `s` with slot `k` of pack `p` changed. -/
def State.modSlot (s : State) (p k : Nat) (f : Slot → Slot) : State := s.modPack p (fun x => x.modSlot k f)

/-- Lane `l` of V`r`. -/
def Pack.vget (x : Pack) (r l : Nat) : W32 := nth 0 x.v (16 * r + l)
/-- `x` with lane `l` of V`r` written. -/
def Pack.vset (x : Pack) (r l : Nat) (w : W32) : Pack := { x with v := x.v.set (16 * r + l) w }
/-- `x` with V`r` written in the listed lanes. -/
def Pack.vsets (x : Pack) (r : Nat) (lw : List (Nat × W32)) : Pack := lw.foldl (fun x e => x.vset r e.1 e.2) x
/-- S`r`. -/
def Pack.sget (x : Pack) (r : Nat) : W64 := nth 0 x.s r
/-- `x` with S`r` written. -/
def Pack.sset (x : Pack) (r : Nat) (w : W64) : Pack := { x with s := x.s.set r w }
/-- P`r` as a lane mask; P7 reads true (R70). -/
def Pack.pget (x : Pack) (r : Nat) : Lanes := if r = 7 then 0xFFFF else nth 0 x.p r
/-- `x` with P`r` written in the lanes of `m`. -/
def Pack.pset (x : Pack) (r : Nat) (m v : Lanes) : Pack := { x with p := modNth x.p r (fun o => (o &&& ~~~ m) ||| (v &&& m)) }
/-- Lane `l` of Q`r`: code in bits [15:0], lineage in [23:16] (R60). -/
def Pack.qget (x : Pack) (r l : Nat) : BitVec 24 := nth 0 x.q (16 * r + l)
/-- `x` with lane `l` of Q`r` written. -/
def Pack.qset (x : Pack) (r l : Nat) (w : BitVec 24) : Pack := { x with q := x.q.set (16 * r + l) w }
/-- Whether V`r` is tagged B (R179). -/
def Pack.tagB (x : Pack) (r : Nat) : Bool := nth false x.tags r
/-- `x` with V`r` tagged. -/
def Pack.tag (x : Pack) (r : Nat) (b : Bool) : Pack := { x with tags := x.tags.set r b }
/-- Vector registers allocated to the pack (R69). -/
def Pack.alloc (x : Pack) : Nat := x.tags.length

/-- A launch that is not there. -/
def noLaunch : Launch := { stat := .retired, queue := 255, ring := 0, part := 0, pasid := 0, addr := 0, raw := 0, grant := 0 }
/-- Launch `l`. -/
def State.launch (s : State) (l : Nat) : Launch := nth noLaunch s.launches l
/-- The launch of pack `p`. -/
def State.launchOf (s : State) (p : Nat) : Launch := s.launch (s.pack p).launch
/-- `s` with launch `l` changed. -/
def State.modLaunch (s : State) (l : Nat) (f : Launch → Launch) : State := { s with launches := modNth s.launches l f }
/-- A block that is not there. -/
def noBlock : Block := { launch := 0, b := 0, cores := [], perCore := 1, npacks := 0, retired := true }
/-- Block `b`. -/
def State.block (s : State) (b : Nat) : Block := nth noBlock s.blocks b
/-- `s` with block `b` changed. -/
def State.modBlock (s : State) (b : Nat) (f : Block → Block) : State := { s with blocks := modNth s.blocks b f }
/-- The block of pack `p`. -/
def State.blockOf (s : State) (p : Nat) : Block := s.block (s.pack p).block
/-- Partition `q`. -/
def State.part (s : State) (q : Nat) : Part := nth {} s.parts q
/-- `s` with partition `q` changed. -/
def State.modPart (s : State) (q : Nat) (f : Part → Part) : State := { s with parts := modNth s.parts q f }

/-- CODEBASE, ENTRY, VREGS, TEAM, TILES, DET, REGIONS, PREEMPT, PRIO, SCRATCH, SEED of a launch record (R350). -/
def Launch.codebase (l : Launch) : Nat := bitsAt l.raw 320 57
def Launch.entry (l : Launch) : Nat := bitsAt l.raw 64 32
def Launch.vregs (l : Launch) : Nat := bitsAt l.raw 96 9
def Launch.teamW (l : Launch) : Nat := 16 * 2 ^ bitsAt l.raw 105 2
def Launch.tiles (l : Launch) : Nat := bitsAt l.raw 107 4
def Launch.det (l : Launch) : Bool := l.raw.getLsbD 111
def Launch.prio (l : Launch) : Nat := bitsAt l.raw 112 3
def Launch.regions (l : Launch) : Bool := l.raw.getLsbD 115
def Launch.preempt (l : Launch) : Bool := l.raw.getLsbD 116
def Launch.gx (l : Launch) : Nat := bitsAt l.raw 128 32
def Launch.gy (l : Launch) : Nat := bitsAt l.raw 160 16
def Launch.gz (l : Launch) : Nat := bitsAt l.raw 176 16
def Launch.bx (l : Launch) : Nat := bitsAt l.raw 192 16
def Launch.bY (l : Launch) : Nat := bitsAt l.raw 208 16
def Launch.bZ (l : Launch) : Nat := bitsAt l.raw 224 16
def Launch.scratch (l : Launch) : Nat := bitsAt l.raw 256 21
def Launch.argmask (l : Launch) : BitVec 96 := l.raw.extractLsb' 512 96
def Launch.argaddr (l : Launch) : Nat := bitsAt l.raw 384 57
def Launch.seed (l : Launch) : W64 := l.raw.extractLsb' 448 64
def Launch.tag (l : Launch) : W64 := l.raw.extractLsb' 832 64
def Launch.variant (l : Launch) : W64 := l.raw.extractLsb' 768 64
def Launch.grantAddr (l : Launch) : Nat := bitsAt l.raw 704 57
/-- SPILLENT of the grant (R351); 0 without one. -/
def Launch.spillEnt (l : Launch) : Nat := bitsAt l.grant 320 32
def Launch.tbase (l : Launch) : Nat := bitsAt l.grant 96 32
def Launch.tlen (l : Launch) : Nat := bitsAt l.grant 128 32
def Launch.wboff (l : Launch) : Nat := bitsAt l.grant 168 8 * 4096
def Launch.wblen (l : Launch) : Nat := bitsAt l.grant 176 9 * 4096
/-- Whether a logical array is granted: it is named, and of a cluster of the launch's partition (R351, R370). -/
def Launch.grantsArray (l : Launch) (g : Nat) : Bool :=
  (List.range 4).any (fun i =>
    let first := bitsAt l.grant (192 + 32 * i) 12
    let count := bitsAt l.grant (208 + 32 * i) 13
    decide (first ≤ g) && decide (g < first + count)) && g / 1024 == l.part
/-- Whether the grant names any array. -/
def Launch.grantsAny (l : Launch) : Bool := (List.range 4).any (fun i => decide (0 < bitsAt l.grant (208 + 32 * i) 13))
/-- Threads of a block (R7). -/
def Launch.threads (l : Launch) : Nat := l.bx * l.bY * l.bZ
/-- Lane positions of a block, whole teams (R7). -/
def Launch.lanePos (l : Launch) : Nat := l.teamW * ((l.threads + l.teamW - 1) / l.teamW)
/-- Logical packs of a block. -/
def Launch.packsPer (l : Launch) : Nat := l.lanePos / 16
/-- `.scratch` rounded up to 256 bytes (R71). -/
def Launch.sRound (l : Launch) : Nat := (l.scratch + 255) / 256 * 256
/-- Vector registers allocated per pack (R69). -/
def Launch.allocV (l : Launch) : Nat := 8 * ((l.vregs + 7) / 8)
/-- The per-core pack count K of R11. -/
def Launch.perCore (l : Launch) : Nat :=
  let t := l.teamW / 16
  let each := 512 + (if l.regions then 2048 else 0)
  let k := min 256 (min (8192 / max 1 l.allocV) ((327680 - min 327680 l.sRound) / each))
  if 327680 < l.sRound then 0 else k / t * t
/-- The logical thread index of lane `ln` of pack `x` (R7). -/
def State.gIndex (s : State) (x : Pack) (ln : Nat) : Nat :=
  (s.block x.block).b * (s.launch x.launch).lanePos + 16 * x.pk + ln

/-- A physical address outside the device: 2^60 + the bus address. -/
def busBase : Nat := 2 ^ 60
/-- Whether a physical key lies outside the device. -/
def isBus (ph : Nat) : Bool := decide (busBase ≤ ph)

/-- A byte of DRAM or of outside memory. -/
def ramRead (s : State) (a : Nat) : BitVec 8 := mapRead ramDefault s.mem.ram a
/-- `s` with a byte of DRAM or of outside memory written. -/
def ramWrite (s : State) (a : Nat) (b : BitVec 8) : State :=
  { s with mem := { s.mem with ram := mapWrite ramDefault s.mem.ram a b } }
/-- `s` with consecutive bytes written from `a`. -/
def ramWrites (s : State) (a : Nat) : List (BitVec 8) → State
  | [] => s
  | b :: bs => ramWrites (ramWrite s a b) (a + 1) bs
/-- A 4-byte word of DRAM. -/
def ramWord (s : State) (w : Nat) : W32 := BitVec.ofNat 32 (ofBytes ((List.range 4).map (fun i => ramRead s (4 * w + i))))

/-- The word registered at the L2: the L2's copy if valid, else DRAM's (R82, R118). -/
def l2Get (s : State) (w : Nat) : W32 :=
  match mapGet s.mem.l2 w with
  | some (.dirty v) => v
  | _ => ramWord s w
/-- A byte as the L2 serves it; outside memory is read where it is (R133). -/
def memByte (s : State) (ph : Nat) : BitVec 8 :=
  if isBus ph then ramRead s ph else (l2Get s (ph / 4)).extractLsb' (8 * (ph % 4)) 8
/-- `n` bytes as the L2 serves them, as a number. -/
def memNat (s : State) (ph n : Nat) : Nat := ofBytes ((List.range n).map (fun i => memByte s (ph + i)))

/-- The L1 key of a core's copy of a word. -/
def l1Key (core w : Nat) : Nat := 256 * w + core
/-- The core's L1 copy of a word, else the L2's (R118). -/
def coreWord (s : State) (core w : Nat) : W32 :=
  match mapGet s.mem.l1 (l1Key core w) with
  | some x => x
  | none => l2Get s w
/-- Every L1's copy of a word dropped (R125). -/
def dropL1 (s : State) (w : Nat) : State :=
  { s with mem := { s.mem with l1 := s.mem.l1.filter (fun e => e.1 / 256 != w) } }
/-- One core's copy of a word dropped. -/
def dropL1Core (s : State) (core w : Nat) : State :=
  { s with mem := { s.mem with l1 := mapDel s.mem.l1 (l1Key core w) } }
/-- Ownership of a word given to a core or revoked (R115, R116). -/
def setOwner (s : State) (w : Nat) (o : Option Nat) : State :=
  { s with mem := { s.mem with owner := match o with | some c => mapPut s.mem.owner w c | none => mapDel s.mem.owner w } }
/-- A word's poison set or cleared (R407). -/
def setPoison (s : State) (w : Nat) (b : Bool) : State :=
  { s with mem := { s.mem with poison := if b then mapPut s.mem.poison w () else mapDel s.mem.poison w } }
/-- Whether a byte's word is poisoned. -/
def poisoned (s : State) (ph : Nat) : Bool := !isBus ph && (mapGet s.mem.poison (ph / 4)).isSome
/-- A line leaves the L2, or stays there clean: its dirty words go to DRAM under the word mask (R82, R89). -/
def writeBack (s : State) (line : Nat) (keep : Bool) : State :=
  (List.range 32).foldl (fun s i =>
    let w := 32 * line + i
    match mapGet s.mem.l2 w with
    | none => s
    | some x =>
      let s := match x with | .dirty v => if isBus (4 * w) then s else ramWrites s (4 * w) (leBytes v.toNat 4) | .clean => s
      { s with mem := { s.mem with l2 := if keep then mapPut s.mem.l2 w .clean else mapDel s.mem.l2 w } }) s
/-- Lines evicted from the L2 (R82). -/
def evictLines (s : State) (ls : List Nat) : State := ls.foldl (fun s l => writeBack s l false) s

/-! ### Capacity (R72, R79, R80, R84) -/

/-- The lines with a valid word in a core's L1. -/
def l1Lines (s : State) (core : Nat) : List Nat := ((s.mem.l1.filter (fun e => e.1 % 256 == core)).map (fun e => e.1 / 256 / 32)).eraseDups
/-- The lines with a valid word in the L2. -/
def l2Lines (s : State) : List Nat := (s.mem.l2.map (fun e => e.1 / 32)).eraseDups
/-- A core's scratchpad size in units of 32 KiB: none while no block is resident (R72). -/
def State.split (s : State) (core : Nat) : Nat :=
  if s.blocks.any (fun b => !b.retired && b.cores.contains core) then (mapGet s.splits core).getD 0 else 0
/-- The ways of a core's L1: 4 for each 32 KiB of the 384 KiB that are not scratchpad (R72, R79). -/
def l1Ways (s : State) (core : Nat) : Nat := 4 * (12 - s.split core)
/-- The ways of the L2 that programs have: 16 but for the reserved and the disabled ones (R80, R84, R430). -/
def l2Ways (s : State) : Nat := 16 - s.dev.ways.toNat - s.dev.waysOff
/-- The lines of a list that lie in the set of `line`, of `n` sets. -/
def sameSet (place : Nat → Nat) (n line : Nat) (ls : List Nat) : List Nat := ls.filter (fun l => place l % n == place line % n)
/-- The line that makes way for `line` where its set is full: `none` while there is room. -/
def victim (place : Nat → Nat) (n ways clk line : Nat) (ls : List Nat) : Option Nat :=
  if ls.contains line || decide (ls.length < ways) then none
  else
    let mine := sameSet place n line ls
    if mine.length < ways then none else mine[Config.freeWay clk % mine.length]?
/-- A line of a core's L1 dropped. -/
def dropL1Line (s : State) (core line : Nat) : State :=
  { s with mem := { s.mem with l1 := s.mem.l1.filter (fun e => e.1 % 256 != core || e.1 / 256 / 32 != line) } }
/-- Room for a line in a core's L1: 64 sets, the line that makes way chosen freely (R79; log 96). -/
def l1Room (s : State) (core line : Nat) : State :=
  match victim Config.l1Set 64 (l1Ways s core) s.clk.toNat line (l1Lines s core) with
  | some l => dropL1Line s core l
  | none => s
/-- Room for a line in the L2: 64 slices of 1,536 sets, the line that makes way chosen freely and written back (R80, R82; log 96). -/
def l2Room (s : State) (line : Nat) : State :=
  match victim Config.l2Set 98304 (l2Ways s) s.clk.toNat line (l2Lines s) with
  | some l => writeBack s l false
  | none => s
/-- A core's L1 cut to its ways after the split has changed: the lines over them are in the departing banks (R72; log 96). -/
def trimL1 (s : State) (core : Nat) : State :=
  (l1Lines s core).foldl (fun s l =>
    let ls := l1Lines s core
    if ls.length ≤ l1Ways s core ∨ (sameSet Config.l1Set 64 l ls).length ≤ l1Ways s core then s else dropL1Line s core l) s
/-- The L2 cut to its ways after some were reserved or disabled (R84). -/
def trimL2 (s : State) : State :=
  (l2Lines s).foldl (fun s l =>
    let ls := l2Lines s
    if ls.length ≤ l2Ways s ∨ (sameSet Config.l2Set 98304 l ls).length ≤ l2Ways s then s else writeBack s l false) s
/-- The scratchpad size of a core set, its L1 shrinking or growing with it (R72). -/
def setSplit (s : State) (core n : Nat) : State := trimL1 { s with splits := mapPut s.splits core n } core

/-- A word written at the L2: valid and dirty, its line allocated without fetching (R80, R81, R115). -/
def l2Put (s : State) (w : Nat) (v : W32) : State :=
  let s := l2Room s (w / 32)
  { s with mem := { s.mem with l2 := mapPut s.mem.l2 w (.dirty v) } }
/-- An absent word of the L2 filled from DRAM (R82). -/
def l2Fill (s : State) (w : Nat) : State :=
  if (mapGet s.mem.l2 w).isSome then s
  else
    let s := l2Room s (w / 32)
    { s with mem := { s.mem with l2 := mapPut s.mem.l2 w .clean } }
/-- A core's L1 given the L2's value of a word. -/
def l1Put (s : State) (core w : Nat) : State :=
  let s := l1Room s core (w / 32)
  { s with mem := { s.mem with l1 := mapPut s.mem.l1 (l1Key core w) (l2Get s w) } }
/-- One byte merged into its word at the L2 (R81); outside bytes go where they are (R133). -/
def l2Byte (s : State) (ph : Nat) (b : BitVec 8) : State :=
  if isBus ph then ramWrite s ph b
  else l2Put s (ph / 4) (putBits (l2Get s (ph / 4)) (8 * (ph % 4)) 8 b.toNat)

/-- The FP32-or-narrower format of an element (R93, R275). -/
def EFmt.ff : EFmt → FFmt
  | .f32 => F32 | .bf16 => BF16 | .f16 => F16 | .e4m3 => E4M3 | .e5m2 => E5M2 | .l6 => F32
/-- Bytes of an element. -/
def EFmt.bytes : EFmt → Nat
  | .f32 => 4 | .bf16 => 2 | .f16 => 2 | .e4m3 => 1 | .e5m2 => 1 | .l6 => 1

/-- One update applied at its L2 slice: the exact sum rounded once (R102), or the lesser or greater (R275). -/
def applyAdd (s : State) (u : AddU) : State :=
  let e := u.fmt.ff.read (memNat s u.ph u.fmt.bytes)
  let t := f32 u.val
  let r := match u.op with
    | .add => fAdd .rn e t
    | .min => fMin e t
    | .max => fMax e t
  let bs := leBytes (u.fmt.ff.write .rn false 0 r) u.fmt.bytes
  let s := if u.fmt.bytes = 4 ∧ !isBus u.ph then setPoison s (u.ph / 4) false else s
  (List.range u.fmt.bytes).foldl (fun s i => l2Byte s (u.ph + i) (nth 0 bs i)) s

/-- Key order of held adds: (g, k, c), equal keys in presentation order (R105, R106). -/
def keyLe (a b : AddU) : Bool :=
  decide (a.g < b.g) || (decide (a.g = b.g) && (decide (a.k < b.k) || (decide (a.k = b.k) && decide (a.c ≤ b.c))))
/-- Stable insertion by key. -/
def insertAdd (u : AddU) : List AddU → List AddU
  | [] => [u]
  | x :: xs => if keyLe x u then x :: insertAdd u xs else u :: x :: xs
/-- A batch in ascending key order. -/
def sortAdds (us : List AddU) : List AddU := us.foldl (fun acc u => insertAdd u acc) []
/-- A batch applied in key order (R106). -/
def applyBatch (s : State) (us : List AddU) : State := (sortAdds us).foldl applyAdd s

/-- A line's held-add window closed: its batch applied, then the intruding adds in arrival order (R106, R366). -/
def closeWindow (s : State) (line : Nat) : State :=
  match mapGet s.mem.windows line with
  | none => s
  | some w =>
    let s := { s with mem := { s.mem with windows := mapDel s.mem.windows line } }
    w.intr.foldl applyAdd (applyBatch s w.batch)
/-- Windows of several lines closed. -/
def closeWindows (s : State) (lines : List Nat) : State := lines.foldl closeWindow s

/-- The line of a physical address (R79). -/
def lineOf (ph : Nat) : Nat := ph / 128
/-- Whether a line lies in a range closed to cores, host and peers by a running job or reducing copy (R126). -/
def closed (s : State) (line : Nat) : Bool :=
  s.ops.any (fun o => o.shut.any (fun r => decide (r.1 < 128 * (line + 1)) && decide (128 * line < r.1 + r.2)))

/-- Bytes registered at the L2 by an agent, in order: windows of their lines closed first; `owner` the registering core
with its L1 updated in the same step, or none (R79, R81, R106, R115, R116). -/
def registerBytes (s : State) (owner : Option Nat) (alloc : Bool) (bs : List (Nat × BitVec 8)) : State :=
  let s := closeWindows s ((bs.filter (fun e => !isBus e.1)).map (fun e => lineOf e.1))
  let s := bs.foldl (fun s e => l2Byte s e.1 e.2) s
  let ws := ((bs.filter (fun e => !isBus e.1)).map (fun e => e.1 / 4)).eraseDups
  ws.foldl (fun s w =>
    let whole := (List.range 4).all (fun i => bs.any (fun e => e.1 == 4 * w + i))
    let s := if whole then setPoison s w false else s
    match owner with
    | none => setOwner s w none
    | some c =>
      let has := (mapGet s.mem.l1 (l1Key c w)).isSome
      setOwner (if has || (alloc && whole) then l1Put s c w else s) w (some c)) s

/-- Bytes registered by an engine: no owner, and every L1 copy invalidated (R125). -/
def engineWrite (s : State) (bs : List (Nat × BitVec 8)) : State :=
  let s := registerBytes s none false bs
  (((bs.filter (fun e => !isBus e.1)).map (fun e => e.1 / 4)).eraseDups).foldl dropL1 s

/-- A load served to a core: the words it touches are in its L1 afterwards unless the policy or the place forbids
(R82, R83, R133). -/
def fillL1 (s : State) (core : Nat) (alloc : Bool) (ws : List Nat) : State :=
  if alloc then
    ws.foldl (fun s w => if (mapGet s.mem.l1 (l1Key core w)).isSome then s else l1Put (l2Fill s w) core w) s
  else s

/-- The acquire of a core: every word of its L1 that it does not own is dropped (R120, R122). -/
def acquireCore (s : State) (core : Nat) : State :=
  { s with mem := { s.mem with l1 := s.mem.l1.filter (fun e => e.1 % 256 != core || mapGet s.mem.owner (e.1 / 256) == some core) } }

/-- A byte of the scratchpad of the block, in the copy of its `i`th core (R73, R74). -/
def scrKey (i off : Nat) : Nat := i * 2 ^ 20 + off
def scrRead (b : Block) (i off : Nat) : BitVec 8 := mapRead 0 b.scratch (scrKey i off)
def scrWrite (b : Block) (i off : Nat) (v : BitVec 8) : Block := { b with scratch := mapWrite 0 b.scratch (scrKey i off) v }
/-- `n` bytes of the scratchpad as a number. -/
def scrNat (b : Block) (i off n : Nat) : Nat := ofBytes ((List.range n).map (fun j => scrRead b i (off + j)))
/-- Consecutive scratchpad bytes written. -/
def scrWrites (b : Block) (i off : Nat) : List (BitVec 8) → Block
  | [] => b
  | v :: vs => scrWrites (scrWrite b i off v) i (off + 1) vs
/-- The index of a pack's core among the block's cores (R11, R74). -/
def State.coreIx (s : State) (x : Pack) : Nat := x.pk / max 1 (s.block x.block).perCore

/-- Word place under the XOR swizzle: byte offset of byte `c` of row `r` (R76). -/
def swzOff (row0 pitch r c : Nat) : Nat :=
  let w := c / 4
  row0 + r * pitch + 4 * (w / 32 * 32 + ((w % 32) ^^^ (r % 32))) + c % 4

end Sys2Proof.Machine
end

