-- ==== Sys2Proof/Machine/Sha512.lean ====
section
/-!
DEFINITION. SHA-512 as FIPS 180-4 gives it, which R427 to R429 name.
-/
namespace Sys2Proof.Machine
open Sys2Proof

/-- Round constants 0 to 39. -/
def sha512K0 : List W64 :=
  [0x428A2F98D728AE22, 0x7137449123EF65CD, 0xB5C0FBCFEC4D3B2F, 0xE9B5DBA58189DBBC, 0x3956C25BF348B538, 0x59F111F1B605D019,
   0x923F82A4AF194F9B, 0xAB1C5ED5DA6D8118, 0xD807AA98A3030242, 0x12835B0145706FBE, 0x243185BE4EE4B28C, 0x550C7DC3D5FFB4E2,
   0x72BE5D74F27B896F, 0x80DEB1FE3B1696B1, 0x9BDC06A725C71235, 0xC19BF174CF692694, 0xE49B69C19EF14AD2, 0xEFBE4786384F25E3,
   0x0FC19DC68B8CD5B5, 0x240CA1CC77AC9C65, 0x2DE92C6F592B0275, 0x4A7484AA6EA6E483, 0x5CB0A9DCBD41FBD4, 0x76F988DA831153B5,
   0x983E5152EE66DFAB, 0xA831C66D2DB43210, 0xB00327C898FB213F, 0xBF597FC7BEEF0EE4, 0xC6E00BF33DA88FC2, 0xD5A79147930AA725,
   0x06CA6351E003826F, 0x142929670A0E6E70, 0x27B70A8546D22FFC, 0x2E1B21385C26C926, 0x4D2C6DFC5AC42AED, 0x53380D139D95B3DF,
   0x650A73548BAF63DE, 0x766A0ABB3C77B2A8, 0x81C2C92E47EDAEE6, 0x92722C851482353B]
/-- Round constants 40 to 79. -/
def sha512K1 : List W64 :=
  [0xA2BFE8A14CF10364, 0xA81A664BBC423001, 0xC24B8B70D0F89791, 0xC76C51A30654BE30, 0xD192E819D6EF5218, 0xD69906245565A910,
   0xF40E35855771202A, 0x106AA07032BBD1B8, 0x19A4C116B8D2D0C8, 0x1E376C085141AB53, 0x2748774CDF8EEB99, 0x34B0BCB5E19B48A8,
   0x391C0CB3C5C95A63, 0x4ED8AA4AE3418ACB, 0x5B9CCA4F7763E373, 0x682E6FF3D6B2B8A3, 0x748F82EE5DEFB2FC, 0x78A5636F43172F60,
   0x84C87814A1F0AB72, 0x8CC702081A6439EC, 0x90BEFFFA23631E28, 0xA4506CEBDE82BDE9, 0xBEF9A3F7B2C67915, 0xC67178F2E372532B,
   0xCA273ECEEA26619C, 0xD186B8C721C0C207, 0xEADA7DD6CDE0EB1E, 0xF57D4F7FEE6ED178, 0x06F067AA72176FBA, 0x0A637DC5A2C898A6,
   0x113F9804BEF90DAE, 0x1B710B35131C471B, 0x28DB77F523047D84, 0x32CAAB7B40C72493, 0x3C9EBE0A15C9BEBC, 0x431D67C49C100D4C,
   0x4CC5D4BECB3E42B6, 0x597F299CFC657E2A, 0x5FCB6FAB3AD6FAEC, 0x6C44198C4A475817]
/-- The initial hash value. -/
def sha512H : List W64 :=
  [0x6A09E667F3BCC908, 0xBB67AE8584CAA73B, 0x3C6EF372FE94F82B, 0xA54FF53A5F1D36F1, 0x510E527FADE682D1, 0x9B05688C2B3E6C1F,
   0x1F83D9ABFB41BD6B, 0x5BE0CD19137E2179]

/-- The eight words of a state, and of a chaining value. -/
structure ShaState where
  a : W64
  b : W64
  c : W64
  d : W64
  e : W64
  f : W64
  g : W64
  h : W64
  deriving DecidableEq, Repr

/-- The functions of the message schedule. -/
def shaS0 (x : W64) : W64 := x.rotateRight 1 ^^^ x.rotateRight 8 ^^^ (x >>> 7)
def shaS1 (x : W64) : W64 := x.rotateRight 19 ^^^ x.rotateRight 61 ^^^ (x >>> 6)
/-- The functions of a round. -/
def shaB0 (x : W64) : W64 := x.rotateRight 28 ^^^ x.rotateRight 34 ^^^ x.rotateRight 39
def shaB1 (x : W64) : W64 := x.rotateRight 14 ^^^ x.rotateRight 18 ^^^ x.rotateRight 41
/-- One round with its constant and schedule word. -/
def shaRound (s : ShaState) (k w : W64) : ShaState :=
  let t1 := s.h + shaB1 s.e + ((s.e &&& s.f) ^^^ (~~~ s.e &&& s.g)) + k + w
  let t2 := shaB0 s.a + ((s.a &&& s.b) ^^^ (s.a &&& s.c) ^^^ (s.b &&& s.c))
  ⟨t1 + t2, s.a, s.b, s.c, s.d + t1, s.e, s.f, s.g⟩
/-- The rounds over the constants, the schedule kept as its next sixteen words. -/
def shaRounds : List W64 → List W64 → ShaState → ShaState
  | [], _, s => s
  | k :: ks, w, s =>
    let next := shaS1 (nth 0 w 14) + nth 0 w 9 + shaS0 (nth 0 w 1) + nth 0 w 0
    shaRounds ks (w.drop 1 ++ [next]) (shaRound s k (nth 0 w 0))
/-- A 64-bit word from eight bytes, the first highest. -/
def beWord (bs : List (BitVec 8)) : W64 := bs.foldl (fun n b => (n <<< 8) ||| b.setWidth 64) 0
/-- The words of a message, eight bytes each. -/
def beWords : Nat → List (BitVec 8) → List W64
  | 0, _ => []
  | n + 1, bs => beWord (bs.take 8) :: beWords n (bs.drop 8)
/-- One block compressed into the chaining value. -/
def shaBlock (h : ShaState) (w : List W64) : ShaState :=
  let s := shaRounds (sha512K0 ++ sha512K1) w h
  ⟨h.a + s.a, h.b + s.b, h.c + s.c, h.d + s.d, h.e + s.e, h.f + s.f, h.g + s.g, h.h + s.h⟩
/-- The blocks of a message compressed in turn. -/
def shaBlocks : Nat → List W64 → ShaState → ShaState
  | 0, _, h => h
  | n + 1, ws, h => shaBlocks n (ws.drop 16) (shaBlock h (ws.take 16))
/-- A message padded to whole blocks of 128 bytes. -/
def shaPad (m : List (BitVec 8)) : List (BitVec 8) :=
  let n := m.length
  m ++ (0x80 : BitVec 8) :: (List.replicate ((239 - n % 128) % 128) 0 ++
    (List.range 16).map (fun i => BitVec.ofNat 8 (8 * n / 2 ^ (8 * (15 - i)))))
/-- The bytes of a word, the highest first. -/
def beBytes (w : W64) : List (BitVec 8) := (List.range 8).map (fun i => w.extractLsb' (8 * (7 - i)) 8)
/-- The 64 bytes of the SHA-512 digest of a message. -/
def sha512 (m : List (BitVec 8)) : List (BitVec 8) :=
  let p := shaPad m
  let iv : ShaState := ⟨nth 0 sha512H 0, nth 0 sha512H 1, nth 0 sha512H 2, nth 0 sha512H 3, nth 0 sha512H 4, nth 0 sha512H 5,
    nth 0 sha512H 6, nth 0 sha512H 7⟩
  let s := shaBlocks (p.length / 128) (beWords (p.length / 8) p) iv
  [s.a, s.b, s.c, s.d, s.e, s.f, s.g, s.h].flatMap beBytes

end Sys2Proof.Machine
end

