-- ==== Sys2Proof/Machine/Ed25519.lean ====
section
/-!
DEFINITION. Ed25519 with SHA-512, as RFC 8032 gives it, which R427 and R429 name.
-/
namespace Sys2Proof.Machine
open Sys2Proof

/-- The prime of the field, and the order of the base point. -/
def edP : Nat := 2 ^ 255 - 19
def edL : Nat := 2 ^ 252 + 27742317777372353535851937790883648493
/-- `b` to the power of an exponent below 2^256, modulo `m`. -/
def powMod (b e m : Nat) : Nat :=
  (List.range 256).foldl (fun a i => if e.testBit (255 - i) then a * a % m * b % m else a * a % m) 1
/-- The inverse in the field. -/
def edInv (x : Nat) : Nat := powMod x (edP - 2) edP
/-- The constant d of the curve, −121665/121666. -/
def edD : Nat := (edP - 121665) * edInv 121666 % edP
/-- A difference in the field. -/
def edSub (a b : Nat) : Nat := (a + edP - b % edP) % edP

/-- A point in extended homogeneous coordinates. -/
structure EdPoint where
  x : Nat
  y : Nat
  z : Nat
  t : Nat
  deriving DecidableEq, Repr
/-- The sum of two points. -/
def EdPoint.add (p q : EdPoint) : EdPoint :=
  let a := edSub p.y p.x * edSub q.y q.x % edP
  let b := (p.y + p.x) * (q.y + q.x) % edP
  let c := p.t * 2 * edD % edP * q.t % edP
  let d := p.z * 2 * q.z % edP
  let e := edSub b a
  let f := edSub d c
  let g := (d + c) % edP
  let h := (b + a) % edP
  ⟨e * f % edP, g * h % edP, f * g % edP, e * h % edP⟩
/-- The neutral point. -/
def edZero : EdPoint := ⟨0, 1, 1, 0⟩
/-- A multiple of a point, the factor below 2^256. -/
def EdPoint.mul (n : Nat) (p : EdPoint) : EdPoint :=
  (List.range 256).foldl (fun r i => let d := r.add r; if n.testBit (255 - i) then d.add p else d) edZero
/-- Whether two points are equal. -/
def EdPoint.same (p q : EdPoint) : Bool := p.x * q.z % edP == q.x * p.z % edP && p.y * q.z % edP == q.y * p.z % edP
/-- The encoding of a point: y, and the lowest bit of x as bit 255. -/
def EdPoint.encode (p : EdPoint) : Nat :=
  let i := edInv p.z
  p.y * i % edP + p.x * i % edP % 2 * 2 ^ 255
/-- The point that 256 bits encode, where they encode one. -/
def edDecode (n : Nat) : Option EdPoint :=
  let y := n % 2 ^ 255
  let sign := n / 2 ^ 255
  let u := edSub (y * y) 1
  let v := (edD * (y * y % edP) + 1) % edP
  let r := u * powMod v 3 edP % edP * powMod (u * powMod v 7 edP) ((edP - 5) / 8) edP % edP
  let w := v * (r * r % edP) % edP
  let x := if w = u then some r else if w = edSub 0 u then some (r * powMod 2 ((edP - 1) / 4) edP % edP) else none
  if edP ≤ y then none
  else match x with
    | none => none
    | some x =>
      if x = 0 ∧ sign = 1 then none
      else
        let x := if x % 2 = sign then x else edP - x
        some ⟨x, y, 1, x * y % edP⟩
/-- The base point: y = 4/5, x even. -/
def edBase : EdPoint := (edDecode (4 * edInv 5 % edP)).getD edZero
/-- SHA-512 of a message as a little-endian number modulo the order. -/
def edHash (m : List (BitVec 8)) : Nat := ofBytes (sha512 m) % edL
/-- Whether a signature of a message holds under a public key. -/
def edVerify (key : BitVec 256) (m : List (BitVec 8)) (sig : BitVec 512) : Bool :=
  let rn := bitsAt sig 0 256
  let sn := bitsAt sig 256 256
  match edDecode key.toNat, edDecode rn with
  | some a, some r =>
    let k := edHash (leBytes rn 32 ++ leBytes key.toNat 32 ++ m)
    decide (sn < edL) && ((edBase.mul sn).mul 8).same ((r.mul 8).add ((a.mul k).mul 8))
  | _, _ => false
/-- The secret scalar and the prefix that a private key of 32 bytes stands for. -/
def edSecret (seed : BitVec 256) : Nat × List (BitVec 8) :=
  let h := sha512 (leBytes seed.toNat 32)
  (ofBytes (h.take 32) % 2 ^ 254 / 8 * 8 + 2 ^ 254, h.drop 32)
/-- The public key of a private key. -/
def edPublic (seed : BitVec 256) : BitVec 256 := BitVec.ofNat 256 (edBase.mul (edSecret seed).1).encode
/-- The signature of a message under a private key. -/
def edSign (seed : BitVec 256) (m : List (BitVec 8)) : BitVec 512 :=
  let a := edSecret seed
  let key := leBytes (edPublic seed).toNat 32
  let r := edHash (a.2 ++ m)
  let rn := (edBase.mul r).encode
  let k := edHash (leBytes rn 32 ++ key ++ m)
  BitVec.ofNat 512 (rn + (r + k * a.1) % edL * 2 ^ 256)

end Sys2Proof.Machine
end

