-- ==== Sys2Proof/Decode.lean ====
section
/-!
DEFINITION. Decoding two words into an instruction (R193 to R201), and the encoder written from the same tables.
-/
namespace Sys2Proof

/-- An instruction word with its fields as formats A, I, M and B name them (R193 to R196). -/
structure Fields where
  w : W64
  deriving DecidableEq, Repr

/-- GUARD. -/
def Fields.guard (x : Fields) : BitVec 4 := x.w.extractLsb' 0 4
/-- D. -/
def Fields.d (x : Fields) : BitVec 9 := x.w.extractLsb' 45 9
/-- A. -/
def Fields.a (x : Fields) : BitVec 9 := x.w.extractLsb' 36 9
/-- B of format A. -/
def Fields.b (x : Fields) : BitVec 9 := x.w.extractLsb' 27 9
/-- C of format A. -/
def Fields.c (x : Fields) : BitVec 9 := x.w.extractLsb' 18 9
/-- MOD of format A. -/
def Fields.mod (x : Fields) : BitVec 14 := x.w.extractLsb' 4 14
/-- IMM of format I. -/
def Fields.imm (x : Fields) : BitVec 32 := x.w.extractLsb' 4 32
/-- KIND of format B. -/
def Fields.kind (x : Fields) : BitVec 4 := x.w.extractLsb' 50 4
/-- CND of format B. -/
def Fields.cnd (x : Fields) : BitVec 7 := x.w.extractLsb' 43 7
/-- TGT of format B. -/
def Fields.tgt (x : Fields) : BitVec 24 := x.w.extractLsb' 19 24
/-- RCV of format B. -/
def Fields.rcv (x : Fields) : BitVec 15 := x.w.extractLsb' 4 15
/-- WIDTH of format M. -/
def Fields.width (x : Fields) : BitVec 3 := x.w.extractLsb' 10 3
/-- POLICY of format M. -/
def Fields.pol (x : Fields) : BitVec 2 := x.w.extractLsb' 8 2
/-- QUAL of format M. -/
def Fields.qual (x : Fields) : BitVec 4 := x.w.extractLsb' 4 4
/-- BASE, INDEX and OFFSET of format M (R195). -/
def Fields.maddr (x : Fields) : MAddr :=
  ⟨x.w.extractLsb' 38 7, x.w.extractLsb' 29 9, x.w.extractLsb' 13 16⟩
/-- Bits of the word. -/
def Fields.extractLsb' (x : Fields) (lo n : Nat) : BitVec n := x.w.extractLsb' lo n
/-- `some ()` when the check holds. -/
def chk (b : Bool) : Option Unit := if b then some () else none

/-- Opcodes 0x001 to 0x00f of the opcode map (R200), fields as their entries give them. -/
def decode00 (op : Nat) (w : Fields) (x : W64) : Option Instr :=
  match op with
  | 0x001 => do chk (w.kind = 0); chk (w.cnd.extractLsb' 4 3 = 0#3); some (.bra w.guard (w.cnd.extractLsb' 0 4) w.tgt w.rcv)
  | 0x002 => do chk (w.rcv = 0); let c ← BrcCond.ofCode w.kind; some (.brc w.guard c w.cnd w.tgt)
  | 0x003 => do chk (w.kind.extractLsb' 2 2 = 0#2); chk (w.cnd.extractLsb' 4 3 = 0#3); chk (x.extractLsb' 60 4 = 0#4); some (.br4 w.guard (w.kind.extractLsb' 0 2) (w.cnd.extractLsb' 0 4) w.tgt w.rcv (x.extractLsb' 16 4) (x.extractLsb' 0 16) (x.extractLsb' 36 4) (x.extractLsb' 20 16) (x.extractLsb' 56 4) (x.extractLsb' 40 16))
  | 0x004 => do chk (w.extractLsb' 19 7 = 0#7); some (.switch w.guard (w.extractLsb' 45 9) (w.extractLsb' 42 3) (w.extractLsb' 26 16) w.rcv x)
  | 0x005 => (do chk (w.kind = 0); chk (w.cnd = 0); chk (w.rcv = 0); some (.call w.guard w.tgt)) <|> (do chk (w.kind = 1); chk (w.tgt = 0); chk (w.rcv = 0); some (.callReg w.guard w.cnd))
  | 0x006 => do chk (w.d = 0); chk (w.a = 0); chk (w.b = 0); chk (w.c = 0); chk (w.mod.extractLsb' 0 14 = 0); some (.ret w.guard)
  | 0x007 => do chk (w.d = 0); chk (w.a = 0); chk (w.b = 0); chk (w.c = 0); chk (w.mod.extractLsb' 0 14 = 0); some (.exit w.guard)
  | 0x008 => do chk (w.d = 0); chk (w.a = 0); chk (w.b = 0); chk (w.c = 0); chk (w.mod.extractLsb' 0 14 = 0); some (.nop w.guard)
  | 0x009 => do chk (w.d = 0); chk (w.a = 0); chk (w.b = 0); chk (w.c = 0); chk (w.mod.extractLsb' 0 14 = 0); some (.yield w.guard)
  | 0x00A => do chk (w.d = 0); chk (w.b = 0); chk (w.c = 0); chk (w.mod.extractLsb' 0 14 = 0); some (.slpt w.guard w.a)
  | 0x00B => do chk (w.d = 0); chk (w.a = 0); chk (w.imm.extractLsb' 14 18 = 0#18); chk (w.imm.extractLsb' 3 5 = 0#5); let k ← KCls.ofCode (w.imm.extractLsb' 0 3); some (.waitk w.guard k (w.imm.extractLsb' 8 6))
  | 0x00C => do chk (w.d = 0); chk (w.a = 0); some (.trap w.guard w.imm)
  | 0x00D => do chk (w.b = 0); chk (w.c = 0); chk (w.mod.extractLsb' 2 12 = 0); some (.gset w.guard (w.mod.getLsbD 1) (w.mod.getLsbD 0) w.d w.a)
  | 0x00E => do chk (w.d = 0); chk (w.a = 0); chk (w.b = 0); chk (w.c = 0); chk (w.mod.extractLsb' 0 14 = 0); some (.region w.guard)
  | 0x00F => do chk (w.d = 0); chk (w.a = 0); chk (w.b = 0); chk (w.c = 0); chk (w.mod.extractLsb' 0 14 = 0); some (.dsync w.guard)
  | _ => none

/-- Opcodes 0x010 to 0x012 of the opcode map (R200), fields as their entries give them. -/
def decode01 (op : Nat) (w : Fields) (_x : W64) : Option Instr :=
  match op with
  | 0x010 => do chk (w.a = 0); chk (w.imm.extractLsb' 8 24 = 0#24); some (.srd w.guard w.d (w.imm.extractLsb' 0 8))
  | 0x011 => do chk (w.d = 0); chk (w.imm.extractLsb' 8 24 = 0#24); some (.swr w.guard (w.imm.extractLsb' 0 8) w.a)
  | 0x012 => do chk (w.d = 0); chk (w.a = 0); chk (w.b = 0); chk (w.c = 0); chk (w.mod.extractLsb' 0 14 = 0); some (.rft w.guard)
  | _ => none

/-- Opcodes 0x040 to 0x044 of the opcode map (R200), fields as their entries give them. -/
def decode04 (op : Nat) (w : Fields) (_x : W64) : Option Instr :=
  match op with
  | 0x040 => do chk (w.a = 0); chk (w.imm.extractLsb' 8 24 = 0#24); some (.psrd w.guard w.d (w.imm.extractLsb' 0 8))
  | 0x041 => do chk (w.d = 0); chk (w.imm.extractLsb' 8 24 = 0#24); some (.pswr w.guard (w.imm.extractLsb' 0 8) w.a)
  | 0x042 => do chk (w.d = 0); chk (w.a = 0); chk (w.b = 0); chk (w.c = 0); chk (w.mod.extractLsb' 0 14 = 0); some (.halt w.guard)
  | 0x043 => do chk (w.d = 0); chk (w.a = 0); chk (w.b = 0); chk (w.c = 0); chk (w.mod.extractLsb' 0 14 = 0); some (.snap w.guard)
  | 0x044 => do chk (w.d = 0); chk (w.a = 0); chk (w.b = 0); chk (w.c = 0); chk (w.mod.extractLsb' 0 14 = 0); some (.prft w.guard)
  | _ => none

/-- Opcodes 0x080 to 0x08f of the opcode map (R200), fields as their entries give them. -/
def decode08 (op : Nat) (w : Fields) (_x : W64) : Option Instr :=
  match op with
  | 0x080 => do chk (w.c = 0); chk (w.mod.extractLsb' 0 10 = 0); let ty' ← IntTy.ofCode (w.mod.extractLsb' 11 3); some (.sadd w.guard ty' (w.mod.getLsbD 10) w.d w.a w.b)
  | 0x081 => do chk (w.c = 0); chk (w.mod.extractLsb' 0 10 = 0); let ty' ← IntTy.ofCode (w.mod.extractLsb' 11 3); some (.ssub w.guard ty' (w.mod.getLsbD 10) w.d w.a w.b)
  | 0x082 => do chk (w.c = 0); chk (w.mod.extractLsb' 0 10 = 0); let ty' ← IntTy.ofCode (w.mod.extractLsb' 11 3); some (.smul w.guard ty' (w.mod.getLsbD 10) w.d w.a w.b)
  | 0x083 => do chk (w.c = 0); chk (w.mod.extractLsb' 0 11 = 0); let ty' ← IntTy.ofCode (w.mod.extractLsb' 11 3); some (.smulh w.guard ty' w.d w.a w.b)
  | 0x084 => do chk (w.mod.extractLsb' 0 10 = 0); let ty' ← IntTy.ofCode (w.mod.extractLsb' 11 3); some (.smad w.guard ty' (w.mod.getLsbD 10) w.d w.a w.b w.c)
  | 0x085 => do chk (w.c = 0); chk (w.mod.extractLsb' 0 11 = 0); let ty' ← IntTy.ofCode (w.mod.extractLsb' 11 3); some (.sand w.guard ty' w.d w.a w.b)
  | 0x086 => do chk (w.c = 0); chk (w.mod.extractLsb' 0 11 = 0); let ty' ← IntTy.ofCode (w.mod.extractLsb' 11 3); some (.sor w.guard ty' w.d w.a w.b)
  | 0x087 => do chk (w.c = 0); chk (w.mod.extractLsb' 0 11 = 0); let ty' ← IntTy.ofCode (w.mod.extractLsb' 11 3); some (.sxor w.guard ty' w.d w.a w.b)
  | 0x088 => do chk (w.c = 0); chk (w.mod.extractLsb' 0 11 = 0); let ty' ← IntTy.ofCode (w.mod.extractLsb' 11 3); some (.sshl w.guard ty' w.d w.a w.b)
  | 0x089 => do chk (w.c = 0); chk (w.mod.extractLsb' 0 11 = 0); let ty' ← IntTy.ofCode (w.mod.extractLsb' 11 3); some (.sshr w.guard ty' w.d w.a w.b)
  | 0x08A => do chk (w.c = 0); chk (w.mod.extractLsb' 0 11 = 0); let ty' ← IntTy.ofCode (w.mod.extractLsb' 11 3); some (.ssar w.guard ty' w.d w.a w.b)
  | 0x08B => do chk (w.c = 0); chk (w.mod.extractLsb' 0 11 = 0); let ty' ← IntTy.ofCode (w.mod.extractLsb' 11 3); some (.smin w.guard ty' w.d w.a w.b)
  | 0x08C => do chk (w.c = 0); chk (w.mod.extractLsb' 0 11 = 0); let ty' ← IntTy.ofCode (w.mod.extractLsb' 11 3); some (.smax w.guard ty' w.d w.a w.b)
  | 0x08D => do chk (w.c = 0); chk (w.mod.extractLsb' 10 1 = 0); chk (w.mod.extractLsb' 0 7 = 0); let ty' ← IntTy.ofCode (w.mod.extractLsb' 11 3); let rel' ← Rel.ofCode (w.mod.extractLsb' 7 3); some (.scmp w.guard ty' rel' w.d w.a w.b)
  | 0x08E => do chk (w.mod.extractLsb' 0 11 = 0); let ty' ← IntTy.ofCode (w.mod.extractLsb' 11 3); some (.ssel w.guard ty' w.d w.a w.b w.c)
  | 0x08F => do chk (w.b = 0); chk (w.c = 0); chk (w.mod.extractLsb' 0 11 = 0); let ty' ← IntTy.ofCode (w.mod.extractLsb' 11 3); some (.smov w.guard ty' w.d w.a)
  | _ => none

/-- Opcodes 0x090 to 0x097 of the opcode map (R200), fields as their entries give them. -/
def decode09 (op : Nat) (w : Fields) (_x : W64) : Option Instr :=
  match op with
  | 0x090 => do chk (w.a = 0); some (.smovi w.guard w.d w.imm)
  | 0x091 => some (.smovh w.guard w.d w.a w.imm)
  | 0x092 => do chk (w.b = 0); chk (w.c = 0); chk (w.mod.extractLsb' 0 11 = 0); let ty' ← IntTy.ofCode (w.mod.extractLsb' 11 3); some (.spop w.guard ty' w.d w.a)
  | 0x093 => do chk (w.b = 0); chk (w.c = 0); chk (w.mod.extractLsb' 0 11 = 0); let ty' ← IntTy.ofCode (w.mod.extractLsb' 11 3); some (.sclz w.guard ty' w.d w.a)
  | 0x094 => do chk (w.c = 0); chk (w.mod.extractLsb' 0 11 = 0); let ty' ← IntTy.ofCode (w.mod.extractLsb' 11 3); some (.sbfe w.guard ty' w.d w.a w.b)
  | 0x095 => do chk (w.mod.extractLsb' 0 11 = 0); let ty' ← IntTy.ofCode (w.mod.extractLsb' 11 3); some (.sbfi w.guard ty' w.d w.a w.b w.c)
  | 0x096 => do chk (w.qual.extractLsb' 1 3 = 0#3); let wd ← Width.ofCode w.width; some (.sld w.guard (w.qual.getLsbD 0) wd (← Policy.ofCode w.pol) w.d w.maddr)
  | 0x097 => do chk (w.qual = 0); let wd ← Width.ofCode w.width; some (.sst w.guard wd (← Policy.ofCode w.pol) w.d w.maddr)
  | _ => none

/-- Opcodes 0x100 to 0x106 of the opcode map (R200), fields as their entries give them. -/
def decode10 (op : Nat) (w : Fields) (_x : W64) : Option Instr :=
  match op with
  | 0x100 => do chk (w.b = 0); chk (w.c = 0); chk (w.mod.extractLsb' 0 14 = 0); some (.pset w.guard w.d w.a)
  | 0x101 => do chk (w.c = 0); chk (w.mod.extractLsb' 2 12 = 0); some (.pand w.guard (w.mod.getLsbD 1) (w.mod.getLsbD 0) w.d w.a w.b)
  | 0x102 => do chk (w.c = 0); chk (w.mod.extractLsb' 2 12 = 0); some (.por w.guard (w.mod.getLsbD 1) (w.mod.getLsbD 0) w.d w.a w.b)
  | 0x103 => do chk (w.c = 0); chk (w.mod.extractLsb' 2 12 = 0); some (.pxor w.guard (w.mod.getLsbD 1) (w.mod.getLsbD 0) w.d w.a w.b)
  | 0x104 => do chk (w.b = 0); chk (w.c = 0); chk (w.mod.extractLsb' 0 14 = 0); some (.pnot w.guard w.d w.a)
  | 0x105 => do chk (w.b = 0); chk (w.c = 0); chk (w.mod.extractLsb' 2 12 = 0); chk (w.mod.extractLsb' 0 1 = 0); some (.pmov w.guard (w.mod.getLsbD 1) w.d w.a)
  | 0x106 => do chk (w.b = 0); chk (w.c = 0); chk (w.mod.extractLsb' 2 12 = 0); chk (w.mod.extractLsb' 0 1 = 0); some (.pany w.guard (w.mod.getLsbD 1) w.d w.a)
  | _ => none

/-- Opcodes 0x110 to 0x118 of the opcode map (R200), fields as their entries give them. -/
def decode11 (op : Nat) (w : Fields) (_x : W64) : Option Instr :=
  match op with
  | 0x110 => do chk (w.c = 0); chk (w.mod.extractLsb' 0 8 = 0); let rel' ← QRel.ofCode (w.mod.extractLsb' 11 3); some (.qcmp w.guard rel' (w.mod.extractLsb' 8 3) w.d w.a w.b)
  | 0x111 => do chk (w.c = 0); chk (w.mod.extractLsb' 2 12 = 0); let rule' ← QRule.ofCode (w.mod.extractLsb' 0 2); some (.qand w.guard rule' w.d w.a w.b)
  | 0x112 => do chk (w.c = 0); chk (w.mod.extractLsb' 2 12 = 0); let rule' ← QRule.ofCode (w.mod.extractLsb' 0 2); some (.qor w.guard rule' w.d w.a w.b)
  | 0x113 => do chk (w.b = 0); chk (w.c = 0); chk (w.mod.extractLsb' 0 14 = 0); some (.qnot w.guard w.d w.a)
  | 0x114 => do chk (w.mod.extractLsb' 0 14 = 0); some (.qblend w.guard w.d w.a w.b w.c)
  | 0x115 => do chk (w.b = 0); chk (w.c = 0); chk (w.mod.extractLsb' 10 4 = 0); chk (w.mod.extractLsb' 0 2 = 0); some (.qdraw w.guard (w.mod.extractLsb' 2 8) w.d w.a)
  | 0x116 => do chk (w.b = 0); chk (w.c = 0); chk (w.mod.extractLsb' 0 14 = 0); some (.qgrad w.guard w.d w.a)
  | 0x117 => do chk (w.b = 0); chk (w.c = 0); chk (w.mod.extractLsb' 2 12 = 0); let dir' ← QDir.ofCode (w.mod.extractLsb' 0 2); some (.qmov w.guard dir' w.d w.a)
  | 0x118 => do chk (w.b = 0); chk (w.c = 0); chk (w.mod.extractLsb' 10 4 = 0); let op' ← LinOp.ofCode (w.mod.extractLsb' 8 2); some (.qlin w.guard op' (w.mod.extractLsb' 0 8) w.d w.a)
  | _ => none

/-- Opcodes 0x140 to 0x14f of the opcode map (R200), fields as their entries give them. -/
def decode14 (op : Nat) (w : Fields) (_x : W64) : Option Instr :=
  match op with
  | 0x140 => do chk (w.c = 0); chk (w.mod.extractLsb' 0 10 = 0); let ty' ← IntTy.ofCode (w.mod.extractLsb' 11 3); some (.vadd w.guard ty' (w.mod.getLsbD 10) w.d w.a w.b)
  | 0x141 => do chk (w.c = 0); chk (w.mod.extractLsb' 0 10 = 0); let ty' ← IntTy.ofCode (w.mod.extractLsb' 11 3); some (.vsub w.guard ty' (w.mod.getLsbD 10) w.d w.a w.b)
  | 0x142 => do chk (w.c = 0); chk (w.mod.extractLsb' 0 10 = 0); let ty' ← IntTy.ofCode (w.mod.extractLsb' 11 3); some (.vmul w.guard ty' (w.mod.getLsbD 10) w.d w.a w.b)
  | 0x143 => do chk (w.c = 0); chk (w.mod.extractLsb' 0 11 = 0); let ty' ← IntTy.ofCode (w.mod.extractLsb' 11 3); some (.vmulh w.guard ty' w.d w.a w.b)
  | 0x144 => do chk (w.mod.extractLsb' 0 10 = 0); let ty' ← IntTy.ofCode (w.mod.extractLsb' 11 3); some (.vmad w.guard ty' (w.mod.getLsbD 10) w.d w.a w.b w.c)
  | 0x145 => do chk (w.c = 0); chk (w.mod.extractLsb' 0 11 = 0); let ty' ← IntTy.ofCode (w.mod.extractLsb' 11 3); some (.vand w.guard ty' w.d w.a w.b)
  | 0x146 => do chk (w.c = 0); chk (w.mod.extractLsb' 0 11 = 0); let ty' ← IntTy.ofCode (w.mod.extractLsb' 11 3); some (.vor w.guard ty' w.d w.a w.b)
  | 0x147 => do chk (w.c = 0); chk (w.mod.extractLsb' 0 11 = 0); let ty' ← IntTy.ofCode (w.mod.extractLsb' 11 3); some (.vxor w.guard ty' w.d w.a w.b)
  | 0x148 => do chk (w.b = 0); chk (w.c = 0); chk (w.mod.extractLsb' 0 11 = 0); let ty' ← IntTy.ofCode (w.mod.extractLsb' 11 3); some (.vnot w.guard ty' w.d w.a)
  | 0x149 => do chk (w.c = 0); chk (w.mod.extractLsb' 0 11 = 0); let ty' ← IntTy.ofCode (w.mod.extractLsb' 11 3); some (.vshl w.guard ty' w.d w.a w.b)
  | 0x14A => do chk (w.c = 0); chk (w.mod.extractLsb' 0 11 = 0); let ty' ← IntTy.ofCode (w.mod.extractLsb' 11 3); some (.vshr w.guard ty' w.d w.a w.b)
  | 0x14B => do chk (w.c = 0); chk (w.mod.extractLsb' 0 11 = 0); let ty' ← IntTy.ofCode (w.mod.extractLsb' 11 3); some (.vsar w.guard ty' w.d w.a w.b)
  | 0x14C => do chk (w.c = 0); chk (w.mod.extractLsb' 0 11 = 0); let ty' ← IntTy.ofCode (w.mod.extractLsb' 11 3); some (.vmin w.guard ty' w.d w.a w.b)
  | 0x14D => do chk (w.c = 0); chk (w.mod.extractLsb' 0 11 = 0); let ty' ← IntTy.ofCode (w.mod.extractLsb' 11 3); some (.vmax w.guard ty' w.d w.a w.b)
  | 0x14E => do chk (w.b = 0); chk (w.c = 0); chk (w.mod.extractLsb' 0 10 = 0); let ty' ← IntTy.ofCode (w.mod.extractLsb' 11 3); some (.vabs w.guard ty' (w.mod.getLsbD 10) w.d w.a)
  | 0x14F => do chk (w.c = 0); chk (w.mod.extractLsb' 10 1 = 0); chk (w.mod.extractLsb' 0 7 = 0); let ty' ← IntTy.ofCode (w.mod.extractLsb' 11 3); let rel' ← Rel.ofCode (w.mod.extractLsb' 7 3); some (.vcmp w.guard ty' rel' w.d w.a w.b)
  | _ => none

/-- Opcodes 0x150 to 0x156 of the opcode map (R200), fields as their entries give them. -/
def decode15 (op : Nat) (w : Fields) (_x : W64) : Option Instr :=
  match op with
  | 0x150 => do chk (w.mod.extractLsb' 2 9 = 0); chk (w.mod.extractLsb' 0 1 = 0); let ty' ← IntTy.ofCode (w.mod.extractLsb' 11 3); some (.vsel w.guard ty' (w.mod.getLsbD 1) w.d w.a w.b w.c)
  | 0x151 => do chk (w.b = 0); chk (w.c = 0); chk (w.mod.extractLsb' 0 11 = 0); let ty' ← IntTy.ofCode (w.mod.extractLsb' 11 3); some (.vmov w.guard ty' w.d w.a)
  | 0x152 => do chk (w.a = 0); some (.vmovi w.guard w.d w.imm)
  | 0x153 => do chk (w.b = 0); chk (w.c = 0); chk (w.mod.extractLsb' 0 11 = 0); let ty' ← IntTy.ofCode (w.mod.extractLsb' 11 3); some (.vpop w.guard ty' w.d w.a)
  | 0x154 => do chk (w.b = 0); chk (w.c = 0); chk (w.mod.extractLsb' 0 11 = 0); let ty' ← IntTy.ofCode (w.mod.extractLsb' 11 3); some (.vclz w.guard ty' w.d w.a)
  | 0x155 => do chk (w.c = 0); chk (w.mod.extractLsb' 0 11 = 0); let ty' ← IntTy.ofCode (w.mod.extractLsb' 11 3); some (.vbfe w.guard ty' w.d w.a w.b)
  | 0x156 => do chk (w.mod.extractLsb' 0 11 = 0); let ty' ← IntTy.ofCode (w.mod.extractLsb' 11 3); some (.vbfi w.guard ty' w.d w.a w.b w.c)
  | _ => none

/-- Opcodes 0x200 to 0x20e of the opcode map (R200), fields as their entries give them. -/
def decode20 (op : Nat) (w : Fields) (_x : W64) : Option Instr :=
  match op with
  | 0x200 => do chk (w.c = 0); chk (w.mod.extractLsb' 0 2 = 0); let rnd' ← Rnd.ofCode (w.mod.extractLsb' 11 3); some (.fadd w.guard rnd' (w.mod.getLsbD 10) (w.mod.extractLsb' 2 8) w.d w.a w.b)
  | 0x201 => do chk (w.c = 0); chk (w.mod.extractLsb' 0 2 = 0); let rnd' ← Rnd.ofCode (w.mod.extractLsb' 11 3); some (.fsub w.guard rnd' (w.mod.getLsbD 10) (w.mod.extractLsb' 2 8) w.d w.a w.b)
  | 0x202 => do chk (w.c = 0); chk (w.mod.extractLsb' 0 2 = 0); let rnd' ← Rnd.ofCode (w.mod.extractLsb' 11 3); some (.fmul w.guard rnd' (w.mod.getLsbD 10) (w.mod.extractLsb' 2 8) w.d w.a w.b)
  | 0x203 => do chk (w.mod.extractLsb' 0 2 = 0); let rnd' ← Rnd.ofCode (w.mod.extractLsb' 11 3); some (.ffma w.guard rnd' (w.mod.getLsbD 10) (w.mod.extractLsb' 2 8) w.d w.a w.b w.c)
  | 0x204 => do chk (w.c = 0); chk (w.mod.extractLsb' 0 14 = 0); some (.fmin w.guard w.d w.a w.b)
  | 0x205 => do chk (w.c = 0); chk (w.mod.extractLsb' 0 14 = 0); some (.fmax w.guard w.d w.a w.b)
  | 0x206 => do chk (w.c = 0); chk (w.mod.extractLsb' 0 11 = 0); let rel' ← QRel.ofCode (w.mod.extractLsb' 11 3); some (.fcmp w.guard rel' w.d w.a w.b)
  | 0x207 => do chk (w.b = 0); chk (w.c = 0); chk (w.mod.extractLsb' 0 14 = 0); some (.frcp w.guard w.d w.a)
  | 0x208 => do chk (w.b = 0); chk (w.c = 0); chk (w.mod.extractLsb' 0 14 = 0); some (.frsq w.guard w.d w.a)
  | 0x209 => do chk (w.b = 0); chk (w.c = 0); chk (w.mod.extractLsb' 0 14 = 0); some (.fsqrt w.guard w.d w.a)
  | 0x20A => do chk (w.b = 0); chk (w.c = 0); chk (w.mod.extractLsb' 0 14 = 0); some (.fexp2 w.guard w.d w.a)
  | 0x20B => do chk (w.b = 0); chk (w.c = 0); chk (w.mod.extractLsb' 0 14 = 0); some (.flog2 w.guard w.d w.a)
  | 0x20C => do chk (w.b = 0); chk (w.c = 0); chk (w.mod.extractLsb' 0 11 = 0); let rnd' ← Rnd.ofCode (w.mod.extractLsb' 11 3); some (.frnd w.guard rnd' w.d w.a)
  | 0x20D => do chk (w.b = 0); chk (w.c = 0); chk (w.mod.extractLsb' 0 14 = 0); some (.fclass w.guard w.d w.a)
  | 0x20E => do chk (w.mod.extractLsb' 1 1 = 0); let rnd' ← Rnd.ofCode (w.mod.extractLsb' 11 3); let fmt' ← HFmt.ofCode (w.mod.extractLsb' 0 1); some (.hfma2 w.guard rnd' (w.mod.getLsbD 10) (w.mod.extractLsb' 2 8) fmt' w.d w.a w.b w.c)
  | _ => none

/-- Opcodes 0x280 to 0x283 of the opcode map (R200), fields as their entries give them. -/
def decode28 (op : Nat) (w : Fields) (_x : W64) : Option Instr :=
  match op with
  | 0x280 => do chk (w.b.extractLsb' 0 5 = 0#5); chk (w.mod.extractLsb' 0 2 = 0#2); chk (w.c.extractLsb' 0 2 = 0#2); let rnd ← Rnd.ofCode (w.mod.extractLsb' 11 3); let df ← CFmt.ofCode (w.b.extractLsb' 5 4); let sf ← CFmt.ofCode (w.c.extractLsb' 5 4); some (.cvt w.guard rnd (w.mod.getLsbD 10) (w.mod.extractLsb' 2 8) df sf (w.c.extractLsb' 2 3) w.d w.a)
  | 0x281 => do chk (w.b.extractLsb' 0 5 = 0#5); chk (w.mod.extractLsb' 0 2 = 0#2); chk (w.c.extractLsb' 0 5 = 0#5); let rnd ← Rnd.ofCode (w.mod.extractLsb' 11 3); let df ← CFmt.ofCode (w.b.extractLsb' 5 4); let sf ← CFmt.ofCode (w.c.extractLsb' 5 4); some (.cvtpk w.guard rnd (w.mod.getLsbD 10) (w.mod.extractLsb' 2 8) df sf w.d w.a)
  | 0x282 => do chk (w.b.extractLsb' 0 5 = 0#5); chk (w.mod.extractLsb' 10 1 = 0#1); let rnd ← Rnd.ofCode (w.mod.extractLsb' 11 3); let df ← MxFmt.ofCode (w.b.extractLsb' 5 4); some (.cvtmx w.guard rnd (w.mod.extractLsb' 2 8) df (w.mod.extractLsb' 0 2) w.d w.a w.c)
  | 0x283 => do chk (w.b.extractLsb' 1 8 = 0#8); chk (w.mod.extractLsb' 10 1 = 0#1); let rnd ← Rnd.ofCode (w.mod.extractLsb' 11 3); some (.cvtl6 w.guard rnd (w.mod.extractLsb' 2 8) (w.b.getLsbD 0) (w.mod.extractLsb' 0 2) w.d w.a w.c)
  | _ => none

/-- Opcodes 0x2c0 to 0x2c6 of the opcode map (R200), fields as their entries give them. -/
def decode2C (op : Nat) (w : Fields) (_x : W64) : Option Instr :=
  match op with
  | 0x2C0 => do chk (w.c = 0); chk (w.mod.extractLsb' 2 12 = 0); let mode' ← ShMode.ofCode (w.mod.extractLsb' 0 2); some (.vshf w.guard mode' w.d w.a w.b)
  | 0x2C1 => do chk (w.c = 0); chk (w.mod.extractLsb' 0 14 = 0); some (.vbcst w.guard w.d w.a w.b)
  | 0x2C2 => do chk (w.b = 0); chk (w.c = 0); chk (w.mod.extractLsb' 0 6 = 0#6); let ty ← RedTy.ofCode (w.mod.extractLsb' 10 4); let op ← RedOp.ofCode (w.mod.extractLsb' 7 3); some (.vred w.guard ty op (w.mod.getLsbD 6) w.d w.a)
  | 0x2C3 => do chk (w.b = 0); chk (w.c = 0); chk (w.mod.extractLsb' 0 5 = 0#5); let ty ← RedTy.ofCode (w.mod.extractLsb' 10 4); let op ← RedOp.ofCode (w.mod.extractLsb' 7 3); some (.vscan w.guard ty op (w.mod.getLsbD 6) (w.mod.getLsbD 5) w.d w.a)
  | 0x2C4 => do chk (w.b = 0); chk (w.c = 0); chk (w.mod.extractLsb' 7 7 = 0); chk (w.mod.extractLsb' 2 4 = 0); let mode' ← BalMode.ofCode (w.mod.extractLsb' 0 2); some (.vbal w.guard (w.mod.getLsbD 6) mode' w.d w.a)
  | 0x2C5 => do chk (w.c = 0); chk (w.mod.extractLsb' 0 14 = 0); some (.vrdl w.guard w.d w.a w.b)
  | 0x2C6 => do chk (w.c = 0); chk (w.mod.extractLsb' 0 14 = 0); some (.vwrl w.guard w.d w.a w.b)
  | _ => none

/-- Opcodes 0x300 to 0x30a of the opcode map (R200), fields as their entries give them. -/
def decode30 (op : Nat) (w : Fields) (_x : W64) : Option Instr :=
  match op with
  | 0x300 => do chk (w.qual.extractLsb' 1 3 = 0#3); let wd ← Width.ofCode w.width; some (.ld w.guard (w.qual.getLsbD 0) wd (← Policy.ofCode w.pol) w.d w.maddr)
  | 0x301 => do chk (w.qual.extractLsb' 1 3 = 0#3); let wd ← Width.ofCode w.width; some (.st w.guard (w.qual.getLsbD 0) wd (← Policy.ofCode w.pol) w.d w.maddr)
  | 0x302 => do chk (w.qual = 0); chk (w.pol = 0); let wd ← Width.ofCode w.width; some (.lds w.guard wd w.d w.maddr)
  | 0x303 => do chk (w.qual.extractLsb' 1 3 = 0#3); chk (w.pol = 0); let wd ← Width.ofCode w.width; some (.sts w.guard (w.qual.getLsbD 0) wd w.d w.maddr)
  | 0x304 => do chk (w.pol = 0); let op ← AtomOp.ofCode w.qual; let wd ← Width.ofCode w.width; some (.atom w.guard op wd w.d w.maddr)
  | 0x305 => do chk (w.pol = 0); chk (w.qual = 0); let wd ← Width.ofCode w.width; some (.acas w.guard wd w.d w.maddr)
  | 0x306 => do chk (w.pol = 0); let op ← FatOp.ofCode (w.qual.extractLsb' 2 2); let fmt ← FatFmt.ofCode (w.qual.extractLsb' 0 2); chk (w.width = fmt.widthCode); some (.fatom w.guard op fmt w.d w.maddr)
  | 0x307 => do chk (w.d = 0); chk (w.a = 0); chk (w.b = 0); chk (w.c = 0); chk (w.mod.extractLsb' 0 14 = 0); some (.acq w.guard)
  | 0x308 => do chk (w.d = 0); chk (w.a = 0); chk (w.b = 0); chk (w.c = 0); chk (w.mod.extractLsb' 0 14 = 0); some (.rel w.guard)
  | 0x309 => (do chk (w.width = 0); chk (w.pol = 0); let f ← CmoForm.ofCode (w.qual.extractLsb' 2 2); let l ← CmoLevel.ofCode (w.qual.extractLsb' 0 2); some (.cmo w.guard f l w.d w.maddr)) <|> (do chk (w.width = 0); chk (w.pol = 0); let l ← CmoLevel.ofCode (w.qual.extractLsb' 0 2); some (.cmoBmp w.guard l w.d w.maddr))
  | 0x30A => do chk (w.d = 0); chk (w.width = 0); chk (w.pol = 0); chk (w.qual.extractLsb' 1 3 = 0#3); some (.pref w.guard (w.qual.getLsbD 0) w.maddr)
  | _ => none

/-- Opcodes 0x380 to 0x387 of the opcode map (R200), fields as their entries give them. -/
def decode38 (op : Nat) (w : Fields) (_x : W64) : Option Instr :=
  match op with
  | 0x380 => do chk (w.width = 0); chk (w.pol = 0); chk (w.qual = 0); some (.gdld w.guard w.d w.maddr)
  | 0x381 => do chk (w.c = 0); chk (w.mod.extractLsb' 0 12 = 0); let ord' ← OrdSel.ofCode (w.mod.extractLsb' 12 2); some (.ild w.guard ord' w.d w.a w.b)
  | 0x382 => do chk (w.c = 0); chk (w.mod.extractLsb' 0 12 = 0); let ord' ← OrdSel.ofCode (w.mod.extractLsb' 12 2); some (.ildg w.guard ord' w.d w.a w.b)
  | 0x383 => do chk (w.d = 0); chk (w.mod.extractLsb' 0 12 = 0); let ord' ← OrdSel.ofCode (w.mod.extractLsb' 12 2); some (.ispl w.guard ord' w.a w.b w.c)
  | 0x384 => do chk (w.mod.extractLsb' 0 14 = 0); some (.hins w.guard w.d w.a w.b w.c)
  | 0x385 => do chk (w.c = 0); chk (w.mod.extractLsb' 0 14 = 0); some (.hfind w.guard w.d w.a w.b)
  | 0x386 => do chk (w.c = 0); chk (w.mod.extractLsb' 0 14 = 0); some (.nbr w.guard w.d w.a w.b)
  | 0x387 => do chk (w.a = 0); chk (w.c = 0); chk (w.mod.extractLsb' 0 14 = 0); some (.hframe w.guard w.d w.b)
  | _ => none

/-- Opcodes 0x3c0 to 0x3c7 of the opcode map (R200), fields as their entries give them. -/
def decode3C (op : Nat) (w : Fields) (x : W64) : Option Instr :=
  match op with
  | 0x3C0 => do chk (w.width = 0); chk (w.pol = 0); chk (w.qual = 0); chk (x.extractLsb' 30 9 = 0#9); chk (x.extractLsb' 0 18 = 0#18); chk (x.extractLsb' 18 2 = 0#2); some (.cpy w.guard (x.getLsbD 20) (x.getLsbD 21) (x.getLsbD 25) (x.extractLsb' 22 3) (x.extractLsb' 26 4) (x.extractLsb' 39 7) (x.extractLsb' 55 9) (x.extractLsb' 46 9) w.d w.maddr)
  | 0x3C1 => do chk (w.width = 0); chk (w.pol = 0); chk (w.qual = 0); chk (x.extractLsb' 30 9 = 0#9); chk (x.extractLsb' 0 18 = 0#18); chk (x.extractLsb' 20 1 = 0#1); let f ← RFmt.ofCode (x.extractLsb' 18 2); some (.cpyr w.guard f (x.getLsbD 21) (x.getLsbD 25) (x.extractLsb' 22 3) (x.extractLsb' 26 4) (x.extractLsb' 39 7) (x.extractLsb' 55 9) (x.extractLsb' 46 9) w.d w.maddr)
  | 0x3C2 => do chk (w.a = 0); some (.binit w.guard w.d w.imm)
  | 0x3C3 => do chk (w.d = 0); chk (w.b = 0); chk (w.c = 0); chk (w.mod.extractLsb' 0 14 = 0); some (.barr w.guard w.a)
  | 0x3C4 => do chk (w.d = 0); chk (w.b = 0); chk (w.c = 0); chk (w.mod.extractLsb' 0 14 = 0); some (.bwait w.guard w.a)
  | 0x3C5 => do chk (w.b = 0); chk (w.c = 0); chk (w.mod.extractLsb' 0 14 = 0); some (.btest w.guard w.d w.a)
  | 0x3C6 => do chk (w.d = 0); chk (w.b = 0); chk (w.c = 0); chk (w.mod.extractLsb' 0 14 = 0); some (.bjoin w.guard w.a)
  | 0x3C7 => do chk (w.d = 0); chk (w.b = 0); chk (w.c = 0); chk (w.mod.extractLsb' 0 14 = 0); some (.bleave w.guard w.a)
  | _ => none

/-- Opcodes 0x3e0 to 0x3e6 of the opcode map (R200), fields as their entries give them. -/
def decode3E (op : Nat) (w : Fields) (x : W64) : Option Instr :=
  match op with
  | 0x3E0 => do chk (w.b = 0); chk (w.c = 0); chk (w.mod.extractLsb' 0 11 = 0#11); chk (x.extractLsb' 0 1 = 0#1); some (.mma w.guard (w.mod.getLsbD 13) (w.mod.getLsbD 12) (w.mod.getLsbD 11) w.d w.a (x.extractLsb' 45 19) (x.extractLsb' 33 12) (x.extractLsb' 13 20) (x.extractLsb' 1 12))
  | 0x3E1 => do chk (w.a = 0); chk (w.b = 0); chk (w.c = 0); chk (w.mod.extractLsb' 0 14 = 0); some (.mzero w.guard w.d)
  | 0x3E2 => do chk (w.width = 2); chk (w.qual.extractLsb' 1 3 = 0#3); some (.mlda w.guard (w.qual.getLsbD 0) (← Policy.ofCode w.pol) w.d w.maddr)
  | 0x3E3 => do chk (w.width = 1 || w.width = 2); some (.msta w.guard (w.width == 1) (w.qual.getLsbD 0) (← Policy.ofCode w.pol) (w.qual.extractLsb' 1 3) w.d w.maddr)
  | 0x3E4 => do chk (w.width = 0); chk (w.pol = 0); chk (w.qual = 0); some (.wbld w.guard w.d w.maddr)
  | 0x3E5 => do chk (w.kind = 0); chk (w.cnd = 0); chk (w.rcv = 0); some (.msec w.guard w.tgt)
  | 0x3E6 => do chk (w.d = 0); chk (w.a = 0); chk (w.b = 0); chk (w.c = 0); chk (w.mod.extractLsb' 0 14 = 0); some (.mend w.guard)
  | _ => none

/-- Opcodes 0x3f0 to 0x3fd of the opcode map (R200), fields as their entries give them. -/
def decode3F (op : Nat) (w : Fields) (x : W64) : Option Instr :=
  match op with
  | 0x3F0 => do chk (w.width = 0); chk (w.pol = 0); chk (w.qual = 0); some (.xprog w.guard w.d w.maddr)
  | 0x3F1 => do chk (w.c = 0); chk (w.mod.extractLsb' 0 14 = 0); some (.xmv w.guard w.d w.a w.b)
  | 0x3F2 => do chk (w.a = 0); chk (w.c = 0); chk (w.mod.extractLsb' 0 14 = 0); some (.xcal w.guard w.d w.b)
  | 0x3F3 => do chk (w.c = 0); chk (w.mod.extractLsb' 0 14 = 0); some (.xref w.guard w.d w.a w.b)
  | 0x3F4 => do chk (w.b = 0); chk (w.c = 0); chk (w.mod.extractLsb' 0 14 = 0); some (.accept w.guard w.d w.a)
  | 0x3F8 => do chk (w.width.extractLsb' 1 2 = 0#2); chk (w.pol = 0); some (.tbind w.guard (w.width.getLsbD 0) w.qual w.d w.maddr)
  | 0x3F9 => do chk (w.c = 0); chk (w.mod.extractLsb' 2 12 = 0); some (.tq w.guard (w.mod.extractLsb' 0 2) w.d w.a w.b)
  | 0x3FA => do chk (w.mod.extractLsb' 2 12 = 0); some (.tqm w.guard (w.mod.extractLsb' 0 2) w.d w.a w.b w.c)
  | 0x3FC => do chk (w.d = 0); chk (w.width = 0); chk (w.pol = 0); chk (w.qual = 0); chk (x.extractLsb' 0 55 = 0#55); some (.nlaunch w.guard (x.getLsbD 63) (x.getLsbD 58) (x.extractLsb' 59 4) (x.extractLsb' 55 3) w.maddr)
  | 0x3FD => do chk (w.width = 3); chk (w.pol = 0); chk (w.qual = 0); some (.post w.guard w.d w.maddr)
  | _ => none

/-- The instruction a word pair encodes, before the checks of step 2 of R202; every unassigned opcode (R201) gives `none`. -/
def decodeRaw (w x : W64) : Option Instr :=
  match (w.extractLsb' 58 6).toNat with
  | 0x00 => decode00 (w.extractLsb' 54 10).toNat ⟨w⟩ x
  | 0x01 => decode01 (w.extractLsb' 54 10).toNat ⟨w⟩ x
  | 0x04 => decode04 (w.extractLsb' 54 10).toNat ⟨w⟩ x
  | 0x08 => decode08 (w.extractLsb' 54 10).toNat ⟨w⟩ x
  | 0x09 => decode09 (w.extractLsb' 54 10).toNat ⟨w⟩ x
  | 0x10 => decode10 (w.extractLsb' 54 10).toNat ⟨w⟩ x
  | 0x11 => decode11 (w.extractLsb' 54 10).toNat ⟨w⟩ x
  | 0x14 => decode14 (w.extractLsb' 54 10).toNat ⟨w⟩ x
  | 0x15 => decode15 (w.extractLsb' 54 10).toNat ⟨w⟩ x
  | 0x20 => decode20 (w.extractLsb' 54 10).toNat ⟨w⟩ x
  | 0x28 => decode28 (w.extractLsb' 54 10).toNat ⟨w⟩ x
  | 0x2C => decode2C (w.extractLsb' 54 10).toNat ⟨w⟩ x
  | 0x30 => decode30 (w.extractLsb' 54 10).toNat ⟨w⟩ x
  | 0x38 => decode38 (w.extractLsb' 54 10).toNat ⟨w⟩ x
  | 0x3C => decode3C (w.extractLsb' 54 10).toNat ⟨w⟩ x
  | 0x3E => decode3E (w.extractLsb' 54 10).toNat ⟨w⟩ x
  | 0x3F => decode3F (w.extractLsb' 54 10).toNat ⟨w⟩ x
  | _ => none

/-- Whether the opcode of a first word is one of the two-word instructions of the opcode map: BR4, SWITCH, CPY, CPYR, MMA and NLAUNCH
(R199, R200). -/
def isPair (w : W64) : Bool := [0x003, 0x004, 0x3C0, 0x3C1, 0x3E0, 0x3FC].contains (w.extractLsb' 54 10).toNat

/-- The decoded instruction of a body word and the word after it, checked as step 2 of R202 does but for the
pack's allocation: `none` raises ILLOP. -/
def decode (w x : W64) : Option Instr :=
  match decodeRaw w x with
  | some i => if i.wellFormed then some i else none
  | none => none

/-- Format A (R193). -/
def encA (op : BitVec 10) (d a b c : Fld) (m : BitVec 14) (g : Guard) : W64 := op ++ d ++ a ++ b ++ c ++ m ++ g
/-- Format I (R194). -/
def encI (op : BitVec 10) (d a : Fld) (imm : BitVec 32) (g : Guard) : W64 := op ++ d ++ a ++ imm ++ g
/-- Format M (R195). -/
def encM (op : BitVec 10) (d : Fld) (m : MAddr) (wd : BitVec 3) (pol : BitVec 2) (q : BitVec 4) (g : Guard) : W64 :=
  op ++ d ++ m.base ++ m.index ++ m.off ++ wd ++ pol ++ q ++ g
/-- Format B (R196). -/
def encB (op : BitVec 10) (kind : BitVec 4) (cnd : BitVec 7) (tgt : BitVec 24) (rcv : BitVec 15) (g : Guard) : W64 :=
  op ++ kind ++ cnd ++ tgt ++ rcv ++ g

/-- The words of an instruction, from the encoding tables of the spec; an event has none. -/
def encode : Instr → List W64
  | .bra g cnd tgt rcv => [encB 0x001 0 (0#3 ++ cnd) tgt rcv g]
  | .brc g cond cnd tgt => [encB 0x002 cond.code cnd tgt 0 g]
  | .br4 g kind p0 t0 rcv p1 t1 p2 t2 p3 t3 => [encB 0x003 (0#2 ++ kind) (0#3 ++ p0) t0 rcv g, 0#4 ++ p3 ++ t3 ++ p2 ++ t2 ++ p1 ++ t1]
  | .switch g val ncase kb rcv toff => [0x004#10 ++ val ++ ncase ++ kb ++ 0#7 ++ rcv ++ g, toff]
  | .call g tgt => [encB 0x005 0 0 tgt 0 g]
  | .callReg g sc => [encB 0x005 1 sc 0 0 g]
  | .ret g => [encA 0x006 0 0 0 0 0 g]
  | .exit g => [encA 0x007 0 0 0 0 0 g]
  | .nop g => [encA 0x008 0 0 0 0 0 g]
  | .yield g => [encA 0x009 0 0 0 0 0 g]
  | .slpt g a => [encA 0x00A 0 a 0 0 0 g]
  | .waitk g k n => [encI 0x00B 0 0 (0#18 ++ n ++ 0#5 ++ k.code) g]
  | .trap g imm => [encI 0x00C 0 0 imm g]
  | .gset g neg u d a => [encA 0x00D d a 0 0 (0#12 ++ BitVec.ofBool neg ++ BitVec.ofBool u) g]
  | .region g => [encA 0x00E 0 0 0 0 0 g]
  | .dsync g => [encA 0x00F 0 0 0 0 0 g]
  | .srd g d num => [encI 0x010 d 0 (0#24 ++ num) g]
  | .swr g num a => [encI 0x011 0 a (0#24 ++ num) g]
  | .rft g => [encA 0x012 0 0 0 0 0 g]
  | .psrd g d num => [encI 0x040 d 0 (0#24 ++ num) g]
  | .pswr g num a => [encI 0x041 0 a (0#24 ++ num) g]
  | .halt g => [encA 0x042 0 0 0 0 0 g]
  | .snap g => [encA 0x043 0 0 0 0 0 g]
  | .prft g => [encA 0x044 0 0 0 0 0 g]
  | .sadd g ty sat d a b => [encA 0x080 d a b 0 (ty.code ++ BitVec.ofBool sat ++ 0#10) g]
  | .ssub g ty sat d a b => [encA 0x081 d a b 0 (ty.code ++ BitVec.ofBool sat ++ 0#10) g]
  | .smul g ty sat d a b => [encA 0x082 d a b 0 (ty.code ++ BitVec.ofBool sat ++ 0#10) g]
  | .smulh g ty d a b => [encA 0x083 d a b 0 (ty.code ++ 0#11) g]
  | .smad g ty sat d a b c => [encA 0x084 d a b c (ty.code ++ BitVec.ofBool sat ++ 0#10) g]
  | .sand g ty d a b => [encA 0x085 d a b 0 (ty.code ++ 0#11) g]
  | .sor g ty d a b => [encA 0x086 d a b 0 (ty.code ++ 0#11) g]
  | .sxor g ty d a b => [encA 0x087 d a b 0 (ty.code ++ 0#11) g]
  | .sshl g ty d a b => [encA 0x088 d a b 0 (ty.code ++ 0#11) g]
  | .sshr g ty d a b => [encA 0x089 d a b 0 (ty.code ++ 0#11) g]
  | .ssar g ty d a b => [encA 0x08A d a b 0 (ty.code ++ 0#11) g]
  | .smin g ty d a b => [encA 0x08B d a b 0 (ty.code ++ 0#11) g]
  | .smax g ty d a b => [encA 0x08C d a b 0 (ty.code ++ 0#11) g]
  | .scmp g ty rel d a b => [encA 0x08D d a b 0 (ty.code ++ 0#1 ++ rel.code ++ 0#7) g]
  | .ssel g ty d a b c => [encA 0x08E d a b c (ty.code ++ 0#11) g]
  | .smov g ty d a => [encA 0x08F d a 0 0 (ty.code ++ 0#11) g]
  | .smovi g d imm => [encI 0x090 d 0 imm g]
  | .smovh g d a imm => [encI 0x091 d a imm g]
  | .spop g ty d a => [encA 0x092 d a 0 0 (ty.code ++ 0#11) g]
  | .sclz g ty d a => [encA 0x093 d a 0 0 (ty.code ++ 0#11) g]
  | .sbfe g ty d a b => [encA 0x094 d a b 0 (ty.code ++ 0#11) g]
  | .sbfi g ty d a b c => [encA 0x095 d a b c (ty.code ++ 0#11) g]
  | .sld g sx wd pol d m => [encM 0x096 d m wd.code pol.code (0#3 ++ BitVec.ofBool sx) g]
  | .sst g wd pol d m => [encM 0x097 d m wd.code pol.code 0 g]
  | .pset g d a => [encA 0x100 d a 0 0 0 g]
  | .pand g na nb d a b => [encA 0x101 d a b 0 (0#12 ++ BitVec.ofBool na ++ BitVec.ofBool nb) g]
  | .por g na nb d a b => [encA 0x102 d a b 0 (0#12 ++ BitVec.ofBool na ++ BitVec.ofBool nb) g]
  | .pxor g na nb d a b => [encA 0x103 d a b 0 (0#12 ++ BitVec.ofBool na ++ BitVec.ofBool nb) g]
  | .pnot g d a => [encA 0x104 d a 0 0 0 g]
  | .pmov g na d a => [encA 0x105 d a 0 0 (0#12 ++ BitVec.ofBool na ++ 0#1) g]
  | .pany g na d a => [encA 0x106 d a 0 0 (0#12 ++ BitVec.ofBool na ++ 0#1) g]
  | .qcmp g rel lin d a b => [encA 0x110 d a b 0 (rel.code ++ lin ++ 0#8) g]
  | .qand g rule d a b => [encA 0x111 d a b 0 (0#12 ++ rule.code) g]
  | .qor g rule d a b => [encA 0x112 d a b 0 (0#12 ++ rule.code) g]
  | .qnot g d a => [encA 0x113 d a 0 0 0 g]
  | .qblend g d a b c => [encA 0x114 d a b c 0 g]
  | .qdraw g stream d a => [encA 0x115 d a 0 0 (0#4 ++ stream ++ 0#2) g]
  | .qgrad g d a => [encA 0x116 d a 0 0 0 g]
  | .qmov g dir d a => [encA 0x117 d a 0 0 (0#12 ++ dir.code) g]
  | .qlin g op mask d a => [encA 0x118 d a 0 0 (0#4 ++ op.code ++ mask) g]
  | .vadd g ty sat d a b => [encA 0x140 d a b 0 (ty.code ++ BitVec.ofBool sat ++ 0#10) g]
  | .vsub g ty sat d a b => [encA 0x141 d a b 0 (ty.code ++ BitVec.ofBool sat ++ 0#10) g]
  | .vmul g ty sat d a b => [encA 0x142 d a b 0 (ty.code ++ BitVec.ofBool sat ++ 0#10) g]
  | .vmulh g ty d a b => [encA 0x143 d a b 0 (ty.code ++ 0#11) g]
  | .vmad g ty sat d a b c => [encA 0x144 d a b c (ty.code ++ BitVec.ofBool sat ++ 0#10) g]
  | .vand g ty d a b => [encA 0x145 d a b 0 (ty.code ++ 0#11) g]
  | .vor g ty d a b => [encA 0x146 d a b 0 (ty.code ++ 0#11) g]
  | .vxor g ty d a b => [encA 0x147 d a b 0 (ty.code ++ 0#11) g]
  | .vnot g ty d a => [encA 0x148 d a 0 0 (ty.code ++ 0#11) g]
  | .vshl g ty d a b => [encA 0x149 d a b 0 (ty.code ++ 0#11) g]
  | .vshr g ty d a b => [encA 0x14A d a b 0 (ty.code ++ 0#11) g]
  | .vsar g ty d a b => [encA 0x14B d a b 0 (ty.code ++ 0#11) g]
  | .vmin g ty d a b => [encA 0x14C d a b 0 (ty.code ++ 0#11) g]
  | .vmax g ty d a b => [encA 0x14D d a b 0 (ty.code ++ 0#11) g]
  | .vabs g ty sat d a => [encA 0x14E d a 0 0 (ty.code ++ BitVec.ofBool sat ++ 0#10) g]
  | .vcmp g ty rel d a b => [encA 0x14F d a b 0 (ty.code ++ 0#1 ++ rel.code ++ 0#7) g]
  | .vsel g ty nc d a b c => [encA 0x150 d a b c (ty.code ++ 0#9 ++ BitVec.ofBool nc ++ 0#1) g]
  | .vmov g ty d a => [encA 0x151 d a 0 0 (ty.code ++ 0#11) g]
  | .vmovi g d imm => [encI 0x152 d 0 imm g]
  | .vpop g ty d a => [encA 0x153 d a 0 0 (ty.code ++ 0#11) g]
  | .vclz g ty d a => [encA 0x154 d a 0 0 (ty.code ++ 0#11) g]
  | .vbfe g ty d a b => [encA 0x155 d a b 0 (ty.code ++ 0#11) g]
  | .vbfi g ty d a b c => [encA 0x156 d a b c (ty.code ++ 0#11) g]
  | .fadd g rnd sat stream d a b => [encA 0x200 d a b 0 (rnd.code ++ BitVec.ofBool sat ++ stream ++ 0#2) g]
  | .fsub g rnd sat stream d a b => [encA 0x201 d a b 0 (rnd.code ++ BitVec.ofBool sat ++ stream ++ 0#2) g]
  | .fmul g rnd sat stream d a b => [encA 0x202 d a b 0 (rnd.code ++ BitVec.ofBool sat ++ stream ++ 0#2) g]
  | .ffma g rnd sat stream d a b c => [encA 0x203 d a b c (rnd.code ++ BitVec.ofBool sat ++ stream ++ 0#2) g]
  | .fmin g d a b => [encA 0x204 d a b 0 0 g]
  | .fmax g d a b => [encA 0x205 d a b 0 0 g]
  | .fcmp g rel d a b => [encA 0x206 d a b 0 (rel.code ++ 0#11) g]
  | .frcp g d a => [encA 0x207 d a 0 0 0 g]
  | .frsq g d a => [encA 0x208 d a 0 0 0 g]
  | .fsqrt g d a => [encA 0x209 d a 0 0 0 g]
  | .fexp2 g d a => [encA 0x20A d a 0 0 0 g]
  | .flog2 g d a => [encA 0x20B d a 0 0 0 g]
  | .frnd g rnd d a => [encA 0x20C d a 0 0 (rnd.code ++ 0#11) g]
  | .fclass g d a => [encA 0x20D d a 0 0 0 g]
  | .hfma2 g rnd sat stream fmt d a b c => [encA 0x20E d a b c (rnd.code ++ BitVec.ofBool sat ++ stream ++ 0#1 ++ fmt.code) g]
  | .cvt g rnd sat stream df sf spos d a => [encA 0x280 d a (df.code ++ 0#5) (sf.code ++ spos ++ 0#2) (rnd.code ++ BitVec.ofBool sat ++ stream ++ 0#2) g]
  | .cvtpk g rnd sat stream df sf d a => [encA 0x281 d a (df.code ++ 0#5) (sf.code ++ 0#5) (rnd.code ++ BitVec.ofBool sat ++ stream ++ 0#2) g]
  | .cvtmx g rnd stream df sb d a c => [encA 0x282 d a (df.code ++ 0#5) c (rnd.code ++ 0#1 ++ stream ++ sb) g]
  | .cvtl6 g rnd stream b16 sb d a c => [encA 0x283 d a (0#8 ++ BitVec.ofBool b16) c (rnd.code ++ 0#1 ++ stream ++ sb) g]
  | .vshf g mode d a b => [encA 0x2C0 d a b 0 (0#12 ++ mode.code) g]
  | .vbcst g d a b => [encA 0x2C1 d a b 0 0 g]
  | .vred g ty op team d a => [encA 0x2C2 d a 0 0 (ty.code ++ op.code ++ BitVec.ofBool team ++ 0#6) g]
  | .vscan g ty op team excl d a => [encA 0x2C3 d a 0 0 (ty.code ++ op.code ++ BitVec.ofBool team ++ BitVec.ofBool excl ++ 0#5) g]
  | .vbal g team mode d a => [encA 0x2C4 d a 0 0 (0#7 ++ BitVec.ofBool team ++ 0#4 ++ mode.code) g]
  | .vrdl g d a b => [encA 0x2C5 d a b 0 0 g]
  | .vwrl g d a b => [encA 0x2C6 d a b 0 0 g]
  | .ld g sx wd pol d m => [encM 0x300 d m wd.code pol.code (0#3 ++ BitVec.ofBool sx) g]
  | .st g bt wd pol d m => [encM 0x301 d m wd.code pol.code (0#3 ++ BitVec.ofBool bt) g]
  | .lds g wd d m => [encM 0x302 d m wd.code 0 0 g]
  | .sts g bt wd d m => [encM 0x303 d m wd.code 0 (0#3 ++ BitVec.ofBool bt) g]
  | .atom g op wd d m => [encM 0x304 d m wd.code 0 op.code g]
  | .acas g wd d m => [encM 0x305 d m wd.code 0 0 g]
  | .fatom g op fmt d m => [encM 0x306 d m fmt.widthCode 0 (op.code ++ fmt.code) g]
  | .acq g => [encA 0x307 0 0 0 0 0 g]
  | .rel g => [encA 0x308 0 0 0 0 0 g]
  | .cmo g form lvl d m => [encM 0x309 d m 0 0 (form.code ++ lvl.code) g]
  | .cmoBmp g lvl d m => [encM 0x309 d m 0 0 (3#2 ++ lvl.code) g]
  | .pref g l2 m => [encM 0x30A 0 m 0 0 (0#3 ++ BitVec.ofBool l2) g]
  | .gdld g d m => [encM 0x380 d m 0 0 0 g]
  | .ild g ord d a b => [encA 0x381 d a b 0 (ord.code ++ 0#12) g]
  | .ildg g ord d a b => [encA 0x382 d a b 0 (ord.code ++ 0#12) g]
  | .ispl g ord a b c => [encA 0x383 0 a b c (ord.code ++ 0#12) g]
  | .hins g d a b c => [encA 0x384 d a b c 0 g]
  | .hfind g d a b => [encA 0x385 d a b 0 0 g]
  | .nbr g d a b => [encA 0x386 d a b 0 0 g]
  | .hframe g d b => [encA 0x387 d 0 b 0 0 g]
  | .cpy g out late gen gslot bar zs org ext d m => [encM 0x3C0 d m 0 0 0 g, org ++ ext ++ zs ++ 0#9 ++ bar ++ BitVec.ofBool gen ++ gslot ++ BitVec.ofBool late ++ BitVec.ofBool out ++ 0#2 ++ 0#18]
  | .cpyr g fmt late gen gslot bar zs org ext d m => [encM 0x3C1 d m 0 0 0 g, org ++ ext ++ zs ++ 0#9 ++ bar ++ BitVec.ofBool gen ++ gslot ++ BitVec.ofBool late ++ 0#1 ++ fmt.code ++ 0#18]
  | .binit g d imm => [encI 0x3C2 d 0 imm g]
  | .barr g a => [encA 0x3C3 0 a 0 0 0 g]
  | .bwait g a => [encA 0x3C4 0 a 0 0 0 g]
  | .btest g d a => [encA 0x3C5 d a 0 0 0 g]
  | .bjoin g a => [encA 0x3C6 0 a 0 0 0 g]
  | .bleave g a => [encA 0x3C7 0 a 0 0 0 g]
  | .mma g bsrc orda ordb d a za pa zb pb => [encA 0x3E0 d a 0 0 (BitVec.ofBool bsrc ++ BitVec.ofBool orda ++ BitVec.ofBool ordb ++ 0#11) g, za ++ pa ++ zb ++ pb ++ 0#1]
  | .mzero g d => [encA 0x3E1 d 0 0 0 0 g]
  | .mlda g bt pol d m => [encM 0x3E2 d m 2 pol.code (0#3 ++ BitVec.ofBool bt) g]
  | .msta g bf bt pol tile d m => [encM 0x3E3 d m (if bf then 1 else 2) pol.code (tile ++ BitVec.ofBool bt) g]
  | .wbld g d m => [encM 0x3E4 d m 0 0 0 g]
  | .msec g tgt => [encB 0x3E5 0 0 tgt 0 g]
  | .mend g => [encA 0x3E6 0 0 0 0 0 g]
  | .xprog g d m => [encM 0x3F0 d m 0 0 0 g]
  | .xmv g d a b => [encA 0x3F1 d a b 0 0 g]
  | .xcal g d b => [encA 0x3F2 d 0 b 0 0 g]
  | .xref g d a b => [encA 0x3F3 d a b 0 0 g]
  | .accept g d a => [encA 0x3F4 d a 0 0 0 g]
  | .tbind g n16 slot d m => [encM 0x3F8 d m (0#2 ++ BitVec.ofBool n16) 0 slot g]
  | .tq g win d a b => [encA 0x3F9 d a b 0 (0#12 ++ win) g]
  | .tqm g win d a b c => [encA 0x3FA d a b c (0#12 ++ win) g]
  | .nlaunch g ben gen bar gslot m => [encM 0x3FC 0 m 0 0 0 g, BitVec.ofBool ben ++ bar ++ BitVec.ofBool gen ++ gslot ++ 0#55]
  | .post g d m => [encM 0x3FD d m 3 0 0 g]
  | .clauseHeader _ _ => []
  | .rotationBlockTimeout _ _ => []
  | .forcedIssue _ => []
  | .promiseCheck _ => []
  | .slptWake _ _ => []
  | .loadDataReturn _ _ => []
  | .storeRegister _ _ _ => []
  | .atomicPerform _ _ => []
  | .mshrGrant _ _ => []
  | .mshrAgeHold _ => []
  | .cmoComplete _ => []
  | .gdldDataArrival _ => []
  | .splatAddArrival _ _ => []
  | .hinsBucketStep _ _ => []
  | .hframeApply _ => []
  | .copyIssueProbe _ _ => []
  | .copyComplete _ => []
  | .guardSlotRead _ => []
  | .cpyrPartApply _ _ => []
  | .matrixPassGrant _ => []
  | .matrixEntryAged _ => []
  | .mmaComplete _ => []
  | .tileRowComplete _ => []
  | .wbldComplete _ => []
  | .xprogDone _ => []
  | .xmvPassDone _ => []
  | .xcalDone _ => []
  | .xrefDone _ => []
  | .tbindCopyDone _ => []
  | .tqDone _ => []
  | .detSyncEffect _ _ => []
  | .qtailWrite _ _ => []
  | .commandNop _ => []
  | .commandLaunch _ => []
  | .commandReplay _ => []
  | .queueStarvationTimeout _ => []
  | .windowFreeAdmit _ => []
  | .blockPlace _ _ => []
  | .caravanPlace _ _ => []
  | .blockWaitTimeout _ _ => []
  | .caravanWaitTimeout _ _ => []
  | .nodeKernel _ _ => []
  | .nodeCellar _ _ => []
  | .nodeCopy _ _ => []
  | .nodeHostwait _ _ => []
  | .nodeCond _ _ => []
  | .nodeEvent _ _ => []
  | .nodeComplete _ _ => []
  | .rheadWrite _ _ => []
  | .eventRecordWrite _ => []
  | .ringCoalesceTimeout _ => []
  | .pctlPreWrite _ => []
  | .partitionHalted _ => []
  | .shadowSaveDone _ => []
  | .drainDone _ => []
  | .pctlResumeWrite _ => []
  | .restoreDone _ => []
  | .xareleaseWrite _ => []
  | .shadowwaysWrite _ => []
  | .cmapWrite _ => []
  | .xlstatRfailClear _ => []
  | .registerWrite _ _ => []
  | .atsTranslationCompletion _ _ _ _ _ _ _ => []
  | .atsCompletionTimeout _ _ => []
  | .pageRequestGroupSend => []
  | .prgResponseSuccess _ => []
  | .prgResponseInvalidRequest _ => []
  | .prgResponseFailure _ => []
  | .atsInvalidateRequest _ _ _ => []
  | .regionRequeue _ => []
  | .hostAtomicopCompletion _ _ _ => []
  | .hostFlushReadCompletion _ => []
  | .peerAcknowledge _ => []
  | .hostBar2Read _ _ => []
  | .hostBar2Write _ _ => []
  | .peerAccessIn _ => []
  | .cellarJobStart _ => []
  | .cellarDot _ => []
  | .cellarSegsum _ => []
  | .cellarAdamw _ => []
  | .cellarRapply _ _ => []
  | .cellarFill _ => []
  | .cellarJobComplete _ => []
  | .sequenceEntryFree _ => []
  | .powerOnReset => []
  | .attcmdWrite _ => []
  | .attestationReport => []
  | .linkPortStateChange _ _ => []
  | .linkFlitReplay _ => []
  | .uncorrectableError _ => []
  | .correctableError => []
  | .clusterFailure _ => []
  | .cellarUnitFailure _ => []
  | .dramRowFailure _ => []
  | .l2WayFailure => []
  | .snapInEdge => []
  | .snaptrigWrite _ => []
  | .snapctlFullClear => []
  | .snapOutRelease => []
  | .plimitWrite _ => []
  | .throttleStepDown _ => []
  | .throttleRestore _ => []
  | .thermalTrip => []
  | .hardwarePrefetch _ _ _ => []
  | .mergeTableAgeHold => []
  | .hostPeerLoadCompletion _ => []

/-- The instruction read from an instruction whose bits are `w`, bit 0 the least significant of the first word,
`nbits` of them given and every bit above them 0 (the table's numbering). -/
def decodeTableWord (nbits w : Nat) : Option Instr :=
  let b := w % 2 ^ nbits
  decode (BitVec.ofNat 64 b) (BitVec.ofNat 64 (b / 2 ^ 64))

end Sys2Proof
end

