-- ==== Sys2Proof/Machine/GridMath.lean ====
section
/-!
DEFINITION. Grid descriptors, addresses, coordinates, taps and interpolation (R93 to R103), and the cells, hashes and
buckets of point-cloud tables (R109 to R112), over any reader of elements.
-/
namespace Sys2Proof.Machine
open Sys2Proof

/-- Fields of a grid descriptor (R93). -/
def gBase (d : BitVec 512) : Nat := bitsAt d 0 57
/-- Extent of an axis. -/
def gExt (d : BitVec 512) (a : Nat) : Nat := bitsAt d (64 + 16 * a) 16 + 1
/-- Signed byte stride of an axis. -/
def gStride (d : BitVec 512) (a : Nat) : Int := sbitsAt d (128 + 32 * a) 32
/-- FMT code. -/
def gFmt (d : BitVec 512) : Nat := bitsAt d 275 3
/-- Number of axes. -/
def gDim (d : BitVec 512) : Nat := bitsAt d 278 2 + 1
/-- LAYOUT: 0 dense, 1 hashed, 2 table, 3 cell. -/
def gLayout (d : BitVec 512) : Nat := bitsAt d 280 2
/-- ACC. -/
def gAcc (d : BitVec 512) : Bool := d.getLsbD 282
/-- ORDER. -/
def gOrder (d : BitVec 512) : Nat := bitsAt d 283 2
/-- Edge rule of an axis. -/
def gEdge (d : BitVec 512) (a : Nat) : Nat := bitsAt d (285 + 3 * a) 3
/-- Number of channels. -/
def gChan (d : BitVec 512) : Nat := bitsAt d 301 3 + 1
/-- CSTRIDE. -/
def gCstride (d : BitVec 512) : Nat := bitsAt d 304 16
/-- TLO and TSCALE. -/
def gTlo (d : BitVec 512) : W32 := d.extractLsb' 320 32
def gTscale (d : BitVec 512) : W32 := d.extractLsb' 352 32
/-- HBITS. -/
def gHbits (d : BitVec 512) : Nat := bitsAt d 384 5
/-- CELLBASE. -/
def gCellbase (d : BitVec 512) : W32 := d.extractLsb' 416 32
/-- OCC, LEVEL, PEND and LOWRUN of the cell layout. -/
def gOcc (d : BitVec 512) : Nat := bitsAt d 448 32
def gLevel (d : BitVec 512) : Nat := bitsAt d 480 4
def gPend (d : BitVec 512) : Bool := d.getLsbD 491
def gLowrun (d : BitVec 512) : Nat := bitsAt d 492 4
/-- The element format (R93); codes 6 and 7 are illegal. -/
def gElem (d : BitVec 512) : EFmt :=
  match gFmt d with | 0 => .f32 | 1 => .bf16 | 2 => .f16 | 3 => .e4m3 | 4 => .e5m2 | _ => .l6

/-- The rules a record must keep (R94). -/
def gridLegal (d : BitVec 512) : Bool :=
  let n := gDim d
  let lay := gLayout d
  let size := (gElem d).bytes
  let axes := List.range 4
  let zero := fun (lo w : Nat) => bitsAt d lo w == 0
  let mult := fun (x : Int) (k : Nat) => x % (k : Int) == 0
  zero 496 16 && zero 484 7 && zero 389 27 && zero 297 4 && zero 256 19 && zero 57 7 &&
  axes.all (fun a => decide (a < n) || (zero (64 + 16 * a) 16 && zero (128 + 32 * a) 32 && zero (285 + 3 * a) 3)) &&
  decide (gFmt d ≤ 5) && gOrder d != 2 && axes.all (fun a => decide (gEdge d a ≤ 4)) &&
  (lay != 2 || n == 1) &&
  (if lay = 1 ∨ lay = 3 then decide (4 ≤ gHbits d) && decide (gHbits d ≤ 28) else gHbits d == 0) &&
  (if lay = 3 then
    decide (n ≤ 3) && gFmt d == 0 && gOrder d == 0 && !gAcc d && gChan d == 1 && gCstride d == 0 &&
    axes.all (fun a => gStride d a == 0) && gTlo d == 0 && gTscale d == 0 && gBase d % 16 == 0 &&
    decide (1 ≤ bitsAt d 439 8) && decide (bitsAt d 439 8 ≤ 254) && zero 447 1
  else if gElem d = .l6 then
    lay != 1 && gStride d 0 == 0 && gBase d % 32 == 0 && gCstride d % 32 == 0 && axes.all (fun a => mult (gStride d a) 32)
  else
    (lay != 1 || (gStride d 1 == 0 && gStride d 2 == 0 && gStride d 3 == 0)) &&
    gBase d % size == 0 && gCstride d % size == 0 && axes.all (fun a => mult (gStride d a) size))

/-- HASH of R95 over the cell's coordinates, each as 32 bits. -/
def gridHash (m : List W32) : W32 :=
  nth 0 m 0 ^^^ (nth 0 m 1 * 0x9E3779B1#32) ^^^ (nth 0 m 2 * 0x85EBCA77#32) ^^^ (nth 0 m 3 * 0xC2B2AE3D#32)
/-- ADDR of R95, modulo 2^64. -/
def gridAddr (d : BitVec 512) (m : List Nat) (c : Nat) : Nat :=
  let off : Int :=
    if gLayout d = 1 then
      (((gridHash (m.map (BitVec.ofNat 32 ·))).toNat % 2 ^ gHbits d : Nat) : Int) * gStride d 0
    else if gElem d = .l6 then
      ((List.range (gDim d)).map (fun a => if a = 0 then ((nth 0 m 0 / 32 * 32 : Nat) : Int) else ((nth 0 m a : Nat) : Int) * gStride d a)).sum
    else ((List.range (gDim d)).map (fun a => ((nth 0 m a : Nat) : Int) * gStride d a)).sum
  (((gBase d : Int) + off + ((c * gCstride d : Nat) : Int)) % (2 ^ 64 : Nat)).toNat
/-- Bytes read for an element from its address (an L6 element reads its block record). -/
def gridSpan (d : BitVec 512) : Nat := if gElem d = .l6 then 32 else (gElem d).bytes
/-- READELEM of R96: the element of `n` bytes spelt by `raw` at the cell, as an exact value or one rounded to FP32. -/
def readElem (d : BitVec 512) (m : List Nat) (raw : Nat) : FVal :=
  match gElem d with
  | .l6 =>
    let e := nth 0 m 0 % 32
    f32 (rne32 (l6Read (raw / 2 ^ (24 * (e / 4)) / 2 ^ (6 * (e % 4)) % 64) (raw / 2 ^ 192 % 256)))
  | f => f.ff.read (raw % 2 ^ (8 * f.bytes))

/-- MAPX of R97. -/
def mapX (d : BitVec 512) (x : W32) : FVal :=
  if gLayout d = 2 then
    f32 (rne32 (fMul (f32 (rne32 (fAdd .rn (f32 x) (fNeg (f32 (gTlo d)))))) (f32 (gTscale d))))
  else f32 x
/-- ⌊n/d⌋ and the remainder. -/
def floorRem (n : Int) (d : Nat) : Int × Nat := (n / (d : Int), (n % (d : Int)).toNat)
/-- SPLITCOORD of R97; never given a NaN. -/
def splitCoord : FVal → Int × Nat
  | .nan => (0, 0)
  | .inf neg => (if neg then -(2 ^ 24 : Int) else 2 ^ 24, 0)
  | .fin neg m e =>
    let n := scaled neg m (max e 0) 0
    let dn := 2 ^ (-e).toNat
    let (i, r) := floorRem n dn
    if (2 ^ 24 : Int) ≤ i then (2 ^ 24, 0)
    else if i < -(2 ^ 24 : Int) then (-(2 ^ 24 : Int), 0)
    else
      let q := nearestDiv (r * 4096) dn
      if q = 4096 then (i + 1, 0) else (i, q)

/-- A tap: index, weight, derivative weight (R98). -/
structure Tap where
  j : Int
  w : W32
  dw : W32
  deriving DecidableEq, Repr
/-- The order an ORD selection gives (R280). -/
def ordOf (d : BitVec 512) (o : OrdSel) : Nat := match o with | .desc => gOrder d | .o0 => 0 | .o1 => 1 | .o3 => 3
/-- AXISTAPS of R98. -/
def axisTaps (ord : Nat) (iq : Int × Nat) : List Tap :=
  let i := iq.1
  let q : Int := iq.2
  let w := fun (x : Int) => rne32 (ofInt x (-37))
  let dw := fun (x : Int) => rne32 (ofInt x (-25))
  if ord = 0 then [⟨if 2048 ≤ iq.2 then i + 1 else i, 0x3F800000, 0⟩]
  else if ord = 1 then [⟨i, rne32 (ofInt (4096 - q) (-12)), 0xBF800000⟩, ⟨i + 1, rne32 (ofInt q (-12)), 0x3F800000⟩]
  else
    [⟨i - 1, w (-(q ^ 3) + 2 ^ 13 * q ^ 2 - 2 ^ 24 * q), dw (-3 * q ^ 2 + 2 ^ 14 * q - 2 ^ 24)⟩,
     ⟨i, w (3 * q ^ 3 - 5 * 2 ^ 12 * q ^ 2 + 2 ^ 37), dw (9 * q ^ 2 - 40960 * q)⟩,
     ⟨i + 1, w (-3 * q ^ 3 + 2 ^ 14 * q ^ 2 + 2 ^ 24 * q), dw (-9 * q ^ 2 + 2 ^ 15 * q + 2 ^ 24)⟩,
     ⟨i + 2, w (q ^ 3 - 2 ^ 12 * q ^ 2), dw (3 * q ^ 2 - 2 ^ 13 * q)⟩]

/-- EDGEMAP of R99; `none` where the rule is FAULT. -/
def edgeMap (rule : Nat) (j : Int) (n : Nat) : Option (Nat × Bool) :=
  if 0 ≤ j ∧ j < (n : Int) then some (j.toNat, true)
  else if rule = 0 then some ((min (max j 0) ((n : Int) - 1)).toNat, true)
  else if rule = 1 then some ((j % (n : Int)).toNat, true)
  else if rule = 2 then
    (if n = 1 then some (0, true)
     else
      let m := (j % ((2 * n - 2 : Nat) : Int)).toNat
      some (if n ≤ m then 2 * n - 2 - m else m, true))
  else if rule = 3 then some (0, false)
  else none

/-- One term of GRIDREAD: the weight, the gradient weights, and the cell where it is present (R100). -/
structure Term where
  w : W32
  g : List W32
  cell : Option (List Nat)
  deriving DecidableEq, Repr
/-- Tuples of taps, axis 0 varying fastest. -/
def tapTuples : List (List Tap) → List (List Tap)
  | [] => [[]]
  | t :: ts => (tapTuples ts).flatMap (fun r => t.map (fun a => a :: r))
/-- RNE32 of a product. -/
def mul32 (a b : W32) : W32 := rne32 (fMul (f32 a) (f32 b))
/-- W of a tuple, axis 0 first. -/
def tupleW : List Tap → W32
  | [] => 0x3F800000
  | t :: ts => ts.foldl (fun w u => mul32 w u.w) t.w
/-- G of axis b of a tuple. -/
def tupleG (b : Nat) (ts : List Tap) : W32 :=
  match ts.zipIdx with
  | [] => 0
  | t :: us => us.foldl (fun w u => mul32 w (if u.2 = b then u.1.dw else u.1.w)) (if t.2 = b then t.1.dw else t.1.w)
/-- Whether a lane reads NaN: a NaN coordinate or mapped coordinate (R97). -/
def nanLane (d : BitVec 512) (x : List W32) : Bool := x.any (fun c => mapX d c == .nan || f32 c == .nan)
/-- The taps of every axis of a lane. -/
def laneTaps (d : BitVec 512) (ord : Nat) (x : List W32) : List (List Tap) :=
  x.map (fun c => axisTaps ord (splitCoord (mapX d c)))
/-- The terms of a lane, in the order of R100. -/
def laneTerms (d : BitVec 512) (ord : Nat) (x : List W32) : List Term :=
  (tapTuples (laneTaps d ord x)).map (fun ts =>
    let ms := ts.zipIdx.map (fun t => edgeMap (gEdge d t.2) t.1.j (gExt d t.2))
    let ok := ms.all (fun m => match m with | some (_, p) => p | none => false)
    ⟨tupleW ts, (List.range (gDim d)).map (fun b => tupleG b ts),
     if ok then some (ms.map (fun m => match m with | some (i, _) => i | none => 0)) else none⟩)
/-- The first tap of a lane outside a FAULT axis: axis and index (R100, R371). -/
def gridFault (d : BitVec 512) (ord : Nat) (x : List W32) : Option (Nat × Int) :=
  if nanLane d x then none
  else ((laneTaps d ord x).zipIdx.flatMap (fun t => t.1.map (fun u => (t.2, u.j)))).find?
    (fun t => (edgeMap (gEdge d t.1) t.2 (gExt d t.1)).isNone)
/-- FMA32. -/
def fma32 (a b c : W32) : W32 := rne32 (fFma .rn (f32 a) (f32 b) (f32 c))
/-- GRIDREAD of a channel: value and gradients from the elements a reader gives (R100). -/
def gridRead (d : BitVec 512) (ord : Nat) (x : List W32) (c : Nat) (rd : List Nat → Nat → FVal) : W32 × List W32 :=
  if nanLane d x then (0x7FC00000, List.replicate (gDim d) 0x7FC00000)
  else
    let vs := (laneTerms d ord x).map (fun t => (t, match t.cell with | some m => rne32 (rd m c) | none => 0))
    match vs with
    | [] => (0, [])
    | v :: rest =>
      let val := rest.foldl (fun a t => fma32 t.1.w t.2 a) (mul32 v.1.w v.2)
      let grad := (List.range (gDim d)).map (fun b =>
        rest.foldl (fun a t => fma32 (nth 0 t.1.g b) t.2 a) (mul32 (nth 0 v.1.g b) v.2))
      (val, if ord = 0 then grad.map (fun _ => 0) else grad)
/-- The adds of a splatted lane: tap index, channel, cell and contribution, in key order (R102, R105). -/
def splatLane (d : BitVec 512) (ord : Nat) (x : List W32) (v : Nat → W32) : List (Nat × Nat × List Nat × W32) :=
  if nanLane d x then []
  else (laneTerms d ord x).zipIdx.flatMap (fun t => match t.1.cell with
    | none => []
    | some m => (List.range (gChan d)).filterMap (fun c =>
        let u := mul32 t.1.w (v c)
        if u.toNat % 2 ^ 31 = 0 then none else some (t.2, c, m, u)))
/-- Addresses that a lane's terms read or write, every channel. -/
def laneAddrs (d : BitVec 512) (ord : Nat) (x : List W32) : List Nat :=
  if nanLane d x then []
  else (laneTerms d ord x).flatMap (fun t => match t.cell with
    | none => []
    | some m => (List.range (gChan d)).map (fun c => gridAddr d m c))

/-! ### Cell tables -/

/-- The cell coordinate of one axis, unbounded: ⌊x / (CELLBASE·2^L)⌋, `none` where x is no number (R109). -/
def cellInt (d : BitVec 512) (x : W32) : Option Int :=
  match f32 x, f32 (gCellbase d) with
  | .fin neg m e, .fin _ cm ce =>
    let ex := e - (ce + gLevel d)
    let n := scaled neg m (max ex 0) 0
    some (n / ((cm * 2 ^ (-ex).toNat : Nat) : Int))
  | _, _ => none
/-- The cell of a point, its coordinates unbounded; `none` where a coordinate has none. -/
def cellInts (d : BitVec 512) (x : List W32) : Option (List Int) :=
  (x.map (cellInt d)).foldr (fun c r => match c, r with | some a, some l => some (a :: l) | _, _ => none) (some [])
/-- The cell of a point within the 16-bit range (R110). -/
def cellOf (d : BitVec 512) (x : List W32) : Option (List Int) :=
  (cellInts d x).filter (fun c => c.all (fun q => decide (-32768 ≤ q) && decide (q ≤ 32767)))
/-- The key doubleword of a cell (R109). -/
def cellKey (c : List Int) : Nat :=
  2 ^ 63 + (List.range 3).foldl (fun k a => k + wrapTo 16 (nth 0 c a) * 2 ^ (16 * a)) 0
/-- The addresses of the buckets a probe of a cell visits (R109). -/
def probeAddrs (d : BitVec 512) (c : List Int) : List Nat :=
  let h := (gridHash (c.map (BitVec.ofInt 32 ·))).toNat
  (List.range 8).map (fun i => gBase d + 16 * ((h + i) % 2 ^ gHbits d))
/-- The neighbours of a cell, o0 varying fastest, each `none` outside the 16-bit range (R111). -/
def neighbours : List Int → List (Option (List Int))
  | [] => [some []]
  | a :: r => (neighbours r).flatMap (fun m => [-1, 0, 1].map (fun o =>
      match m with
      | some l => if -32768 ≤ a + o ∧ a + o ≤ 32767 then some ((a + o) :: l) else none
      | none => none))
/-- The 3^d cells around a point, those outside the range and those of no number `none` (R111). -/
def nearCells (d : BitVec 512) (x : List W32) : List (Option (List Int)) :=
  match cellInts d x with
  | some c => neighbours c
  | none => List.replicate (3 ^ gDim d) none
/-- Where a probe ends over a reader of buckets: the bucket that holds the cell, the first free one, or neither
(R110). -/
inductive Found where
  | holds (addr : Nat) | free (addr : Nat) | neither
  deriving DecidableEq, Repr
/-- A probe over bucket addresses: `rd` gives the key doubleword (R110). -/
def probeWalk (key : Nat) (rd : Nat → Nat) : List Nat → Found
  | [] => .neither
  | a :: as =>
    let k := rd a
    if k / 2 ^ 63 = 1 ∧ k % 2 ^ 48 = key % 2 ^ 48 then .holds a
    else if k / 2 ^ 63 = 0 then .free a
    else probeWalk key rd as

end Sys2Proof.Machine
end

