-- ==== Sys2Proof/Machine/Xlate.lean ====
section
/-!
DEFINITION. Address translation (R394 to R403), the views of device memory (R409, R410), peer windows (R425, R426), and
the results an instruction's body can have.
-/
namespace Sys2Proof.Machine
open Sys2Proof

/-- A trap or fault raised at an instruction: cause, information, and the packs whose lanes raised it, each with its own
information (`[]`: raised by the instruction as a whole), and the PC to save when it is not the instruction's (R220,
R371, R372). -/
structure Exn where
  cause : Nat
  info : W64
  who : List (Nat × W64) := []
  resume : Option Nat := none
  deriving DecidableEq, Repr

/-- Why a body does not retire its instruction in the issuing slot: the slot stays blocked (the state carries only what
waiting itself changed), a trap or fault is raised, or the body has retired or stopped every part itself. -/
inductive Halt where
  | stall (s : State) (w : Stall)
  | exc (e : Exn)
  | handled (s : State)

/-- The result of an instruction's body. -/
abbrev M := Except Halt

def cTRAP := 0x01
def cXDRIFT := 0x02
def cLATE := 0x03
def cILLOP := 0x10
def cILLTGT := 0x11
def cBNDUSE := 0x12
def cOPFORMAT := 0x13
def cGRIDRANGE := 0x14
def cMISALIGN := 0x15
def cSCRATCH := 0x16
def cKENNELFULL := 0x17
def cREGIONFULL := 0x18
def cXLATE := 0x19
def cMEMERR := 0x1A
def cUNHANDLED := 0x1B
def cDOUBLE := 0x1C

/-- Raise a cause as a whole (R372). -/
def raise {α : Type} (cause : Nat) (info : W64) : M α := .error (.exc { cause := cause, info := info })
/-- Raise a cause in the packs listed, each with its information; go on where none is (R372). -/
def raiseIn (cause : Nat) (who : List (Nat × W64)) : M Unit :=
  if who.isEmpty then .ok () else .error (.exc { cause := cause, info := 0, who := who })
/-- Go on only if a check does not fail. -/
def failIf (b : Bool) (cause : Nat) (info : W64) : M Unit := if b then raise cause info else .ok ()
/-- Go on only if nothing is to be waited for. -/
def waitIf (b : Bool) (s : State) (w : Stall) : M Unit := if b then .error (.stall s w) else .ok ()

/-- PINFO of XLATE: the address in [56:0], bit 63 for a write (R371). -/
def xlateInfo (va : Nat) (write : Bool) : W64 := BitVec.ofNat 64 (va % 2 ^ 57 + if write then 2 ^ 63 else 0)

/-- AFFGIB as it reads: 0 reads as 1 (R411). -/
def State.aff (s : State) : Nat := if s.dev.affgib = 0 then 1 else s.dev.affgib.toNat
/-- The stack and offset of a device physical address through its view, `none` outside the table "Stack ranges"
(R409, R410). -/
def State.dpa (s : State) (d : Nat) : Option Nat :=
  if d < 2 ^ 39 then
    let o := d % 2 ^ 36
    if (64 - s.aff) * 2 ^ 30 ≤ o ∧ o < 2 ^ 36 - 2 ^ 28 then some d else none
  else if d < 2 ^ 40 then
    let x := d - 2 ^ 39
    let o := x / 2 ^ 15 * 2 ^ 12 + x % 2 ^ 12
    if o < (64 - s.aff) * 2 ^ 30 then some (x / 2 ^ 12 % 8 * 2 ^ 36 + o) else none
  else none
/-- The stack of a physical key. -/
def stackOf (ph : Nat) : Nat := ph / 2 ^ 36
/-- The Cellar unit that owns a physical key: 32·stack + o[25:21] (R409). -/
def unitOf (ph : Nat) : Nat := 32 * stackOf ph + ph % 2 ^ 36 / 2 ^ 21 % 32
/-- Whether a physical key lies in the Cellar-affine range (R91, R410). -/
def State.affine (s : State) (ph : Nat) : Bool := !isBus ph && decide ((64 - s.aff) * 2 ^ 30 ≤ ph % 2 ^ 36)

/-- PEERWIN `i`. -/
def State.window (s : State) (i : Nat) : W64 := nth 0 s.dev.peerwin i
/-- The lowest enabled peer window a translated address lies in (R425). -/
def State.peerIx (s : State) (a : Nat) : Option Nat :=
  (List.range 16).find? (fun i => (s.window i).getLsbD 63 && bitsAt (s.window i) 40 17 == a / 2 ^ 40 % 2 ^ 17)
/-- The ports of a window that are UP, ascending (R426). -/
def State.upPorts (s : State) (w : W64) : List Nat :=
  (List.range 12).filter (fun i => w.getLsbD i && bitsAt (nth 0 s.dev.linkstat i) 0 2 == 2)
/-- The keys of peer memory: 2^62 + 2^40·PEER + the peer's device physical address. -/
def peerBase : Nat := 2 ^ 62
/-- The key of the peer's word that a window maps an address to: device physical address A − (BASE shl 40) of PEER (R425). -/
def peerKey (w : W64) (a : Nat) : Nat := peerBase + bitsAt w 32 8 * 2 ^ 40 + a % 2 ^ 40
/-- The port that serves a 4 KiB page of a peer, by its key, through window `i`: U[(A div 4096) mod |U|] (R426). -/
def State.portOf (s : State) (i page : Nat) : Option Nat :=
  let u := s.upPorts (s.window i)
  u[(bitsAt (s.window i) 40 17 * 2 ^ 28 + page % 2 ^ 28) % u.length]?
/-- A peer's key with the window that led to it, as translations and page maps keep it: above 2^64. -/
def linked (ph i : Nat) : Nat := ph + (i + 1) * 2 ^ 64

/-- The target kind of a translated address; peer memory with its window (R394, R423, R425). -/
inductive Target where
  | device (ph : Nat) | peer (ph win : Nat) | host (ph : Nat) | none
  deriving DecidableEq, Repr
/-- Where a translated address leads (R410, R423, R425, R426): `none` raises XLATE. -/
def State.target (s : State) (a : Nat) : Target :=
  if s.dev.bar2 ≤ a ∧ a < s.dev.bar2 + 2 ^ 40 then
    (match s.dpa (a - s.dev.bar2) with | some ph => .device ph | Option.none => .none)
  else
    match s.peerIx a with
    | some i => if (s.upPorts (s.window i)).isEmpty then .none else .peer (peerKey (s.window i) a) i
    | Option.none => .host (busBase + a)
/-- The keys of pages that are accessed untranslated: 2^61 + the virtual address, whatever the PASID; they count as host memory (R395;
DESIGN CHOICE, log 5). -/
def untrBase : Nat := 2 ^ 61
/-- Whether a physical key is peer memory. -/
def isPeer (ph : Nat) : Bool := decide (peerBase ≤ ph)
/-- Whether a physical key is host memory. -/
def isHost (ph : Nat) : Bool := isBus ph && !isPeer ph

/-- The entries a cache can hold (R394). -/
def Tc.cap : Tc → Nat
  | .l1 _ => 64 | .courier _ => 32 | .engine _ => 16 | .cellar _ => 64 | .l2 => 8192
/-- Whether an entry answers a lookup. -/
def Tlb.hits (t : Tlb) (pasid va : Nat) (write : Bool) : Bool :=
  t.pasid == pasid && decide (t.base ≤ va) && decide (va < t.base + t.size) && (if write then t.w else t.r)
/-- The PASID of an operation: its launch's, or its replay's queue's (R347, R357). -/
def State.opPasid (s : State) (o : Op) : Nat :=
  match o.node with
  | none => (s.launch o.launch).pasid
  | some (r, _) => (match s.replays[r]? with | some q => q.pasid | none => 0)
/-- Whether an issued copy, WBLD, XPROG or Cellar job pins a cached translation in its engine's cache (R403). -/
def State.pins (s : State) (t : Tlb) : Bool :=
  s.ops.any (fun o => !o.done && s.opPasid o == t.pasid && (match o.body, t.tc with
    | .copy _, .courier c => (match o.pack with | some p => (nth noPack s.packs p).core == c | none => true)
    | .wbld _ _ _, .engine _ => true
    | .xprog _ _ _ _ _ _, .engine _ => true
    | .job j, .cellar k => j.stack == k
    | _, _ => false) && o.tr.any (fun e => decide (t.base ≤ 4096 * e.1) && decide (4096 * e.1 < t.base + t.size)))
/-- A translation added to a cache: the oldest entry that is not pinned makes way in a full one; a cache full of pins takes no more
(R394, R403). -/
def State.tlbPut (s : State) (t : Tlb) : State :=
  let mine := s.tlbs.filter (fun u => u.tc == t.tc)
  if mine.length < t.tc.cap then { s with tlbs := s.tlbs ++ [t] }
  else match mine.find? (fun u => !s.pins u) with
    | some u => { s with tlbs := s.tlbs.erase u ++ [t] }
    | none => s
/-- A lookup in a cache and in the L2 TLB (R396). -/
def State.tlbFind (s : State) (tc : Tc) (pasid va : Nat) (write : Bool) : Option Tlb :=
  match s.tlbs.find? (fun t => t.tc == tc && t.hits pasid va write) with
  | some t => some t
  | none => s.tlbs.find? (fun t => t.tc == .l2 && t.hits pasid va write)

/-- A cache filled from the L2 TLB with what accesses to these addresses find there (R394). -/
def State.fillTc (s : State) (tc : Tc) (pasid : Nat) (as : List (Nat × Bool)) : State :=
  as.foldl (fun s a =>
    if s.tlbs.any (fun t => t.tc == tc && t.hits pasid a.1 a.2) then s
    else match s.tlbs.find? (fun t => t.tc == .l2 && t.hits pasid a.1 a.2) with
      | some t => if tc == .l2 then s else s.tlbPut { t with tc := tc }
      | none => s) s

/-- The answer to one translation: a physical key (of peer memory with its window), a miss, or an unrecoverable fault (R397, R402). -/
inductive XRes where
  | ok (ph : Nat) | miss | fail
  deriving DecidableEq, Repr

/-- One page's translation for a waiter: caches first, then a failed or untranslated entry of the merge table that
lists the waiter (R395, R396, R400). -/
def State.xlate (s : State) (tc : Tc) (pasid who va : Nat) (write : Bool) : XRes :=
  if 2 ^ 57 ≤ va then .fail
  else
    match s.tlbFind tc pasid va write with
    | some t =>
      (match s.target (t.tbase + (va - t.base)) with
       | .device ph => .ok ph | .peer ph i => .ok (linked ph i) | .host ph => .ok ph | .none => .fail)
    | none =>
      let mine := s.merges.filter (fun m => m.pasid == pasid && m.page == va / 4096 && m.waiters.contains who)
      if mine.any (fun m => m.st == .untr && (if write then m.perm.2 else m.perm.1)) then .ok (untrBase + va)
      else if mine.any (fun m => m.st == .failed) then .fail
      else .miss

/-- The waiter number of a slot. -/
def waiterOf (p k : Nat) : Nat := 2 * p + k
/-- The waiter number of an operation. -/
def opWaiter (id : Nat) : Nat := 2 ^ 32 + id
/-- The waiter numbers of the command processor for a queue, of an event ring, and of a graph node. -/
def queueWaiter (q : Nat) : Nat := 2 ^ 33 + q
def ringWaiter (r : Nat) : Nat := 2 ^ 33 + 64 + r
def nodeWaiter (r n : Nat) : Nat := 2 ^ 34 + 4096 * r + n
/-- Whether a waiter still waits: a slot blocked on translation, an operation not done, a queue with a command, a ring with a record, or a
graph node that is ready (R396). -/
def State.waits (s : State) (who : Nat) : Bool :=
  if who < 2 ^ 32 then ((s.pack (who / 2)).slot (who % 2)).stall == some .xlate
  else if who < 2 ^ 33 then s.ops.any (fun o => opWaiter o.id == who && !o.done)
  else if who < ringWaiter 0 then (let q := nth {} s.queues (who - queueWaiter 0); q.ctl.getLsbD 7 && q.head != q.tail)
  else if who < nodeWaiter 0 0 then s.records.any (fun e => ringWaiter e.ring == who)
  else s.replays.zipIdx.any (fun r => r.1.started && !r.1.finished &&
    r.1.nodes.zipIdx.any (fun n => nodeWaiter r.2 n.2 == who && n.1.stat == .ready))
/-- Whether an entry is a page's, and not one that only still tells waiters to go untranslated (R395, R396). -/
def Merge.isOf (m : Merge) (pasid page : Nat) : Bool := m.pasid == pasid && m.page == page && m.st != .untr
/-- The entry of the merge table for a page. -/
def State.mergeOf (s : State) (pasid page : Nat) : Option Merge := s.merges.find? (fun m => m.isOf pasid page)
/-- The entry that a lookup finds: the page's, else one that still tells waiters to go untranslated, which has the permission asked for
(R395, R396). -/
def State.foundMerge (s : State) (pasid page : Nat) (write : Bool) : Option Merge :=
  match s.mergeOf pasid page with
  | some m => some m
  | none => s.merges.find? (fun m => m.pasid == pasid && m.page == page && m.st == .untr && (if write then m.perm.2 else m.perm.1))
/-- Whether the merge table can take a lookup: room in the list of the entry it finds, or for a new entry (R396). -/
def State.mergeRoom (s : State) (pasid page : Nat) (write : Bool) : Bool :=
  match s.foundMerge pasid page write with
  | some m => decide (m.waiters.length < 64)
  | none => decide (s.merges.length < 512)
/-- The older lookups turned away that still wait. -/
def State.olderTurned (s : State) (who pasid page : Nat) : List Turned :=
  (s.mshr.turned.takeWhile (fun t => !(t.who == who && t.pasid == pasid && t.page == page))).filter (fun t => s.waits t.who)

/-- A waiter enters the merge table for a page that its cache `tc` lacks: it joins the entry it finds, or a new entry emits one ATS
request; a full table or list, or an older lookup that goes first, turns it away (R395, R396). -/
def State.wantPage (s : State) (tc : Tc) (part pasid who page : Nat) (write : Bool) : State :=
  let mine := s.foundMerge pasid page write
  let here : Bool := match mine with | some m => m.waiters.contains who | none => false
  if here then
    { s with merges := s.merges.map (fun n => if some n == mine && write && !n.writers.contains who
        then { n with writers := n.writers ++ [who] } else n) }
  else if !s.mergeRoom pasid page write ||
      (s.olderTurned who pasid page).any (fun t => s.mshr.held.contains 256 || s.mergeRoom t.pasid t.page false) then
    if s.mshr.turned.any (fun t => t.who == who && t.pasid == pasid && t.page == page) then s
    else { s with mshr := { s.mshr with turned := s.mshr.turned ++ [⟨who, pasid, page, s.clk.toNat⟩] } }
  else
    let s := { s with mshr := { s.mshr with
      turned := s.mshr.turned.filter (fun t => !(t.who == who && t.pasid == pasid && t.page == page)),
      held := if s.mshr.turned.any (fun t => t.who == who) then s.mshr.held.filter (· != 256) else s.mshr.held } }
    let ws := if write then [who] else []
    match mine with
    | some m => { s with merges := s.merges.map (fun n => if n == m
                    then { n with waiters := n.waiters ++ [who], writers := n.writers ++ ws, tcs := n.tcs ++ [tc] } else n) }
    | none => { s with merges := s.merges ++ [⟨pasid, page, write, [who], .ats, 0, s.clk.toNat, part, ws, [tc], (false, false)⟩],
                       sent := s.sent ++ [.ats pasid page write],
                       parts := modNth s.parts part (fun q => { q with atsreq := q.atsreq + 1 }) }

/-- An entry whose outcome is known: unrecoverable, or untranslated access. -/
def Merge.settled (m : Merge) : Bool := m.st == .failed || m.st == .untr
/-- A waiter leaves the table; an entry whose outcome every waiter has is freed (R396). -/
def State.leaveMerge (s : State) (who : Nat) : State :=
  let ms := s.merges.map (fun m => if m.settled then { m with waiters := m.waiters.filter (fun v => v != who) } else m)
  { s with merges := ms.filter (fun m => !(m.waiters.isEmpty && m.settled)),
           mshr := { s.mshr with turned := s.mshr.turned.filter (fun t => t.who != who) } }
/-- Waiters that end for good taken out of every entry (R383, R396). -/
def State.quitMerge (s : State) (gone : Nat → Bool) : State :=
  let ms := s.merges.map (fun m => { m with waiters := m.waiters.filter (fun v => !gone v), writers := m.writers.filter (fun v => !gone v) })
  { s with merges := ms.filter (fun m => !(m.waiters.isEmpty && m.settled)),
           mshr := { s.mshr with turned := s.mshr.turned.filter (fun t => !gone t.who) } }

/-- Translate the pages of a list of accesses (address, write). All hold: the page map. One is unrecoverable: XLATE with
the lowest such address. Otherwise the missing pages are asked for and the instruction stalls (R402). -/
def probe (s : State) (tc : Tc) (part pasid who : Nat) (as : List (Nat × Bool)) : M PMap :=
  let rs := as.map (fun a => (a, s.xlate tc pasid who a.1 a.2))
  let bad := rs.filter (fun r => r.2 == .fail)
  match bad with
  | b :: bs =>
    let lo := bs.foldl (fun m r => if r.1.1 < m.1 then r.1 else m) b.1
    raise cXLATE (xlateInfo lo.1 lo.2)
  | [] =>
    let miss := rs.filter (fun r => r.2 == .miss)
    if miss.isEmpty then
      .ok (rs.foldl (fun m r => match r.2 with
        | .ok ph => if m.any (fun e => e.1 == r.1.1 / 4096) then m else m ++ [(r.1.1 / 4096, ph / 4096)]
        | _ => m) [])
    else .error (.stall (miss.foldl (fun s r => s.wantPage tc part pasid who (r.1.1 / 4096) r.1.2) s) .xlate)

/-- The physical key of an address through an operation's page map. -/
def PMap.at (m : PMap) (va : Nat) : Option Nat :=
  (m.find? (fun e => e.1 == va / 4096)).map (fun e => e.2 % 2 ^ 52 * 4096 + va % 4096)
/-- As `PMap.at`, 0 where the page is not in the map. -/
def PMap.get (m : PMap) (va : Nat) : Nat := (m.at va).getD 0

/-- One address on each page of [va, va + n). -/
def pagesOf (va n : Nat) (write : Bool) : List (Nat × Bool) :=
  if n = 0 then []
  else (List.range ((va + n - 1) / 4096 - va / 4096 + 1)).map
    (fun i => (if i = 0 then va else (va / 4096 + i) * 4096, write))
/-- `n` bytes at a virtual address through a page map, as the L2 serves them. -/
def vNat (s : State) (m : PMap) (va n : Nat) : Nat := ofBytes ((List.range n).map (fun i => memByte s (m.get (va + i))))
/-- Bytes at virtual addresses turned into bytes at physical keys. -/
def PMap.bytes (m : PMap) (va : Nat) (bs : List (BitVec 8)) : List (Nat × BitVec 8) :=
  bs.zipIdx.map (fun e => (m.get (va + e.2), e.1))

end Sys2Proof.Machine
end

