-- ==== Sys2Proof/Machine/Jobs.lean ====
section
/-!
DEFINITION. Job records of near memory: their fields, their ranges and the units that own them (R333, R334, R412, R413).
-/
namespace Sys2Proof.Machine
open Sys2Proof

/-- Fields of a job record (R333, R413). -/
def jKind (r : BitVec 512) : Nat := bitsAt r 60 4
def jAff (r : BitVec 512) : Nat := bitsAt r 57 3
def jArg (r : BitVec 512) (i : Nat) : Nat := bitsAt r (64 * i) 57
def jEvent (r : BitVec 512) : Nat := bitsAt r 256 57
def jNidx (r : BitVec 512) : Nat := bitsAt r 320 32
def jNbag (r : BitVec 512) : Nat := bitsAt r 352 32
def jP (r : BitVec 512) : Nat := bitsAt r 384 32
def jN (r : BitVec 512) : Nat := bitsAt r 416 32
def jOfmt (r : BitVec 512) : Nat := bitsAt r 472 4
def jFmt (r : BitVec 512) : Nat := bitsAt r 476 4
def jLen (r : BitVec 512) : Nat := bitsAt r 480 16
def jTag (r : BitVec 512) : Nat := bitsAt r 496 16
/-- Bytes of an element of a format code 0, 1 or 2. -/
def fmtBytes (f : Nat) : Nat := if f = 0 then 4 else 2
/-- The format of a code. -/
def fmtOf (f : Nat) : FFmt := if f = 0 then F32 else if f = 1 then BF16 else F16

/-- A job's ranges: argument, length in bytes, and whether it is written (R334, R413). -/
def jobArgs (r : BitVec 512) : List (Nat × Nat × Bool) :=
  let es := fmtBytes (jFmt r)
  if jKind r = 0 then [(0, (jN r - 1) * jP r + jLen r * es, false), (1, jLen r * es, false), (2, 4 * jN r, true)]
  else if jKind r = 1 then [(0, (jN r - 1) * jP r + jLen r * es, false), (1, 4 * jNidx r, false), (2, 4 * (jNbag r + 1), false),
    (3, jNbag r * jLen r * fmtBytes (jOfmt r), true)]
  else if jKind r = 2 then [(0, 16 * jN r, true), (1, jN r * es, false), (2, 64, false)]
  else if jKind r = 3 then [(0, jN r * es, true), (1, jN r * es, false)]
  else [(0, 4 * jN r, true)]
/-- The ranges as virtual addresses. -/
def jobRanges (r : BitVec 512) : List (Nat × Nat × Bool) := (jobArgs r).map (fun a => (jArg r a.1, a.2.1, a.2.2))
/-- The job an operation is. -/
def Op.job? (o : Op) : Option Job := match o.body with | .job j => some j | _ => none
/-- The units that own the pieces of the affinity argument's range, ascending (R412). -/
def jobUnits (o : Op) (r : BitVec 512) : List Nat :=
  ((jobArgs r).filter (fun a => a.1 == jAff r)).flatMap (fun a =>
    ((pagesOf (jArg r a.1) a.2.1 false).map (fun p => unitOf (o.tr.get p.1))).foldl
      (fun us u => us.filter (fun v => decide (v < u)) ++ u :: us.filter (fun v => decide (u < v))) [])

end Sys2Proof.Machine
end

