-- ==== Sys2Proof/Machine/Foot.lean ====
section
/-!
DEFINITION. What outstanding operations still touch and occupy: footprints, MSHRs (R85), links (R425), reservation entries (R167),
sequence tables (R417), and what a snapshot latches of all this (R432).
-/
namespace Sys2Proof.Machine
open Sys2Proof

/-! ### Footprints and MSHRs -/

/-- A range widened to whole words. -/
def wholeWords (lo n : Nat) : Nat × Nat := (lo / 4 * 4, (lo + n + 3) / 4 * 4 - lo / 4 * 4)
/-- The physical ranges that an operation still reads or writes. -/
def Op.foot (o : Op) : List (Nat × Nat) :=
  let at' := fun va n => (o.tr.at va).map (fun ph => (ph, n))
  match o.body with
  | .load accs n _ _ _ _ => accs.filterMap (fun a => at' a.va n)
  | .grid d ord _ lanes _ => lanes.flatMap (fun l => (laneAddrs d.raw ord l.x).filterMap (fun a => at' a (gridSpan d.raw)))
  | .hfind d lanes _ => lanes.flatMap (fun l => match cellOf d.raw l.x with
      | some c => (probeAddrs d.raw c).filterMap (fun a => at' a 16) | none => [])
  | .nbr d lanes _ => lanes.flatMap (fun l => (nearCells d.raw l.x).flatMap (fun m => match m with
      | some c => (probeAddrs d.raw c).filterMap (fun a => at' a 16) | none => []))
  | .gdld _ _ va _ => (at' va 64).toList
  | .store bs _ => bs.map (fun b => (b.1, 1))
  | .post bs => bs.map (fun b => (b.1, 1))
  | .atom _ n _ ls => ls.filterMap (fun l => (o.tr.at l.va).map (fun ph => wholeWords ph n))
  | .adds us _ _ _ => us.map (fun u => wholeWords u.ph u.fmt.bytes)
  | .cmo _ _ ls => ls.filterMap (fun l => at' l 128)
  | .hins d lanes _ => (at' d.home 64).toList ++ lanes.flatMap (fun l => match cellOf d.raw l.x with
      | some c => (probeAddrs d.raw c).filterMap (fun a => at' a 16) | none => [])
  | .hframe _ d _ _ _ _ => (at' d.home 64).toList ++ o.tr.map (fun e => (4096 * (e.2 % 2 ^ 52), 4096))
  | _ => []
/-- The pages of peer memory that an operation reaches, by key, with the windows that led to them (R425). -/
def Op.links (o : Op) : List (Nat × Nat) := o.tr.filterMap (fun e => if e.2 < 2 ^ 52 then none else some (e.2 % 2 ^ 52, e.2 / 2 ^ 52 - 1))
/-- Whether ranges touch a page. -/
def touches (rs : List (Nat × Nat)) (page : Nat) : Bool :=
  rs.any (fun r => decide (r.1 < 4096 * (page + 1)) && decide (4096 * page < r.1 + r.2))
/-- The words a range touches. -/
def wordsOf (r : Nat × Nat) : List Nat := (List.range ((r.1 + r.2 + 3) / 4 - r.1 / 4)).map (r.1 / 4 + ·)
/-- Lines of a footprint with a touched word that the core's L1 does not hold (R85). -/
def missLines (s : State) (core : Nat) (foot : List (Nat × Nat)) : List Nat :=
  (((foot.flatMap wordsOf).filter (fun w => (mapGet s.mem.l1 (l1Key core w)).isNone)).map (· / 32)).eraseDups
/-- The core of an operation's pack. -/
def State.opCore (s : State) (o : Op) : Nat := match o.pack with | some p => (s.pack p).core | none => 0
/-- Where the lines of accesses that have no translation yet are tracked: above every physical key, apart for each PASID (R85, R405). -/
def looseKey (pasid va : Nat) : Nat := 2 ^ 64 * (pasid + 1) + va
/-- The ranges of a load of an open region that have no translation yet (R405). -/
def Op.looseFoot (pasid : Nat) (o : Op) : List (Nat × Nat) :=
  match o.body with
  | .load accs n _ _ _ _ => (accs.filter (fun a => (o.tr.at a.va).isNone)).map (fun a => (looseKey pasid a.va, n))
  | _ => []
/-- The lines a load or a prefetch into the L1 waits for (R85). -/
def Op.waitLines (s : State) (core : Nat) (o : Op) : List Nat :=
  match o.body with
  | .load _ _ _ _ _ _ => missLines s core (o.foot ++ o.looseFoot (s.launch o.launch).pasid)
  | .grid _ _ _ _ _ => missLines s core o.foot
  | .hfind _ _ _ => missLines s core o.foot
  | .nbr _ _ _ => missLines s core o.foot
  | .gdld _ _ _ _ => missLines s core o.foot
  | .pref false ls => missLines s core (ls.map (fun l => (128 * l, 128)))
  | _ => []
/-- The lines that the core's outstanding loads wait for, one entry for each waiting instruction: the members' parts of a ganged one
are one instruction (R85). -/
def mshrWaits (s : State) (core : Nat) : List Nat :=
  let os := s.ops.filter (fun o => !o.done && o.pack.isSome && s.opCore o == core)
  ((os.map (·.grp)).eraseDups).flatMap (fun g => ((os.filter (fun o => o.grp == g)).flatMap (Op.waitLines s core)).eraseDups)
/-- MSHRs in use: one for each 16 waiting instructions of a line (R85). -/
def mshrUsed (ws : List Nat) : Nat := (ws.eraseDups.map (fun l => (ws.count l + 15) / 16)).sum

/-! ### Engines and base dies -/

/-- The matrix engine of a core: its cluster's. -/
def engineOf (core : Nat) : Nat := core / 4
/-- The team of a pack: its block and its place in the block. -/
def State.teamOf (s : State) (p : Nat) : Nat × Nat := ((s.pack p).block, (s.pack p).pk / ((s.launchOf p).teamW / 16))
/-- Whether an operation holds a reservation entry (R167). -/
def Op.isEntry (o : Op) : Bool :=
  match o.body with
  | .mma _ => true
  | .mzero _ _ _ => true
  | .mlda _ _ _ _ _ => true
  | .msta _ _ _ _ _ => true
  | .wbld _ _ _ => true
  | _ => false
/-- The entries of an engine. -/
def entriesOn (s : State) (e : Nat) : List Op := s.ops.filter (fun o => o.isEntry && !o.done && engineOf (s.opCore o) == e)
/-- Entries a stack's table holds. -/
def seqsOn (s : State) (stack : Nat) : Nat := (s.seqs.filter (fun e => e.2.1 == stack)).length

/-- The key of a region's entry: PASID and virtual address div 64 KiB (R417). -/
def seqKey (pasid va : Nat) : Nat := pasid * 2 ^ 41 + va / 65536

/-! ### Commands and links -/

/-- Whether an older copy of the core has not started: it is held by its guard (R145, R153). -/
def queuedBehind (s : State) (o : Op) : Bool :=
  s.ops.any (fun q => decide (q.id < o.id) && !q.done && q.pack.isSome && s.opCore q == s.opCore o &&
    (match q.body with | .copy c => c.held | _ => false))
/-- Whether a guard holds a command: its own, or that of a command before it in its engine's queue (R153). -/
def guardHeld (s : State) (o : Op) : Bool :=
  !o.done && (match o.body with
  | .copy c => !c.discarded && (c.held || queuedBehind s o)
  | .job j => !j.discarded && j.stage == .held
  | _ => false)
/-- The requests outstanding on a port: the pages that it serves of every operation not yet performed there, in issue order; a command
that its guard holds has none (R426; log 122). -/
def onPort (s : State) (port : Nat) : List Relay :=
  s.ops.flatMap (fun o => if o.done || guardHeld s o then [] else
    (o.links.filter (fun l => s.portOf l.2 l.1 == some port && (o.foot.isEmpty || touches o.foot l.1))).map (fun l => ⟨o.id, l.1, l.2⟩))
/-- The requests that a port's failure has sent back and that are not performed yet (R426). -/
def State.relayed (s : State) : List Relay := s.dev.relays.filter (fun e => s.ops.any (fun o => o.id == e.op && !o.done))
/-- Whether a later request to a page of a footprint must wait for one that was sent back (R426). -/
def behindRelay (s : State) (foot : List (Nat × Nat)) : Bool := s.relayed.any (fun e => touches foot e.page)

/-! ### Snapshots -/

/-- A core's part of a snapshot: for each quarter and port the pack, slot and PC that issued there last; for each quarter the packs that
have a path ready and those that are forced; the MSHRs in use and the copies outstanding (R432). -/
def snapCore (s : State) (c : Nat) : List Nat :=
  let mine := s.packs.zipIdx.filter (fun e => e.1.core == c)
  let ready := fun (sl : Slot) => sl.path.isSome && !sl.blocked
  (List.range 4).flatMap (fun q =>
    let here := mine.filter (fun e => e.1.quarter == q)
    (List.range 2).flatMap (fun n =>
      let on := here.filterMap (fun e => (mapGet e.1.lastOn n).map (fun v => (v, e.2)))
      match on with
      | [] => [0, 0, 0]
      | a :: as => (let b := as.foldl (fun b e => if b.1.1 < e.1.1 then e else b) a; [b.2, b.1.2.1, b.1.2.2])) ++
    [here.countP (fun e => !e.1.retired && (ready e.1.lead || ready e.1.heel)), here.countP (fun e => e.1.forced)]) ++
  [mshrUsed (mshrWaits s c), s.ops.countP (fun o => !o.done && o.pack.isSome && s.opCore o == c && (match o.body with | .copy _ => true | _ => false))]
/-- The slice of the L2 that a line maps to. -/
def sliceOf (line : Nat) : Nat := Config.l2Set line % 98304 / 1536
/-- Where the operations of class ATOM that an outstanding one has still to do are performed: each lane's word, for HINS the first bucket of
its probe, for HFRAME the home (R110, R113). -/
def Op.atomicKeys (o : Op) : List Nat :=
  if o.done then []
  else match o.body with
  | .atom _ _ _ ls => ls.map (fun l => o.tr.get l.va)
  | .adds us _ splat _ => if splat then [] else us.map (·.ph)
  | .hins d lanes _ => lanes.map (fun l => o.tr.get (((cellOf d.raw l.x).bind (fun c => (probeAddrs d.raw c).head?)).getD d.home))
  | .hframe _ d _ _ _ _ => [o.tr.get d.home]
  | _ => []
/-- An L2 slice's part: its open held-add windows, the merge-table entries in use, the atomics still to be performed there (R113). -/
def snapSlice (s : State) (n : Nat) : List Nat :=
  [s.mem.windows.countP (fun w => sliceOf w.1 == n), s.merges.length,
   (s.ops.flatMap Op.atomicKeys).countP (fun ph => !isBus ph && sliceOf (lineOf ph) == n)]
/-- A matrix engine's part: its entries with their teams, the blocks whose tiles it holds, the entry in pass. -/
def snapEngine (s : State) (e : Nat) : List Nat :=
  (entriesOn s e).flatMap (fun o => match o.pack with | some p => [o.id, (s.teamOf p).1, (s.teamOf p).2] | none => []) ++
  s.blocks.zipIdx.flatMap (fun b => if !b.1.retired && b.1.cores.any (fun c => engineOf c == e) then [b.2, b.1.tiles.length] else []) ++
  (match mapGet s.dev.inPass e with | some i => if s.ops.any (fun o => o.id == i && !o.done) then [i] else [] | none => [])
/-- The elements of a RAPPLY job whose parts have been applied (R415, R417). -/
def appliedEls (s : State) (o : Op) (j : Job) : Nat :=
  (List.range (jN j.raw)).countP (fun i => j.parts.any (fun q => q.applied &&
    q.region == seqKey (s.opPasid o) (jArg j.raw 0 + fmtBytes (jFmt j.raw) * i)))
/-- A Cellar unit's part: TAG, element position, wave and deferred slots of the jobs that run there; a job computes in one step here, so its
position is its start or its end, but for a RAPPLY's, which counts the elements of the parts applied. -/
def snapUnit (s : State) (u : Nat) : List Nat :=
  s.ops.flatMap (fun o => match o.job? with
    | some j =>
      if o.done || j.discarded || !(jobUnits o j.raw).contains u then []
      else match j.stage with
        | .held => []
        | .queued => []
        | .running => [jTag j.raw, appliedEls s o j, 0, j.deferred]
        | .computed => [jTag j.raw, jN j.raw, 1, j.deferred]
    | none => [])
/-- A link port's part: STATE, the requests outstanding on it, REPLAYS. -/
def snapPort (s : State) (n : Nat) : List Nat :=
  let w := nth 0 s.dev.linkstat n
  [bitsAt w 0 2, (onPort s n).length, bitsAt w 32 16]
/-- What every unit latches, by the numbers of the table "Snapshot units" (R432). -/
def snapContent (s : State) : List (Nat × List Nat) :=
  let stack := fun (k : Nat) => [seqsOn s k, nth 32 s.dev.perm k]
  let command := s.queues.map (fun q => q.head.toNat) ++ [s.replays.countP (fun r => r.started && !r.finished),
    (s.replays.map (fun r => r.nodes.countP (fun n => n.stat == .running))).sum]
  let part := fun (lo n : Nat) (f : Nat → List Nat) => (List.range n).map (fun i => (lo + i, f i))
  part 0 256 (snapCore s) ++ part 256 64 (snapSlice s) ++ part 320 64 (snapEngine s) ++ part 384 256 (snapUnit s) ++
  part 640 12 (snapPort s) ++ part 652 8 stack ++ [(660, command)]

end Sys2Proof.Machine
end

