-- ==== Sys2Proof/Machine/Ops.lean ====
section
/-!
DEFINITION. The operations every meaning is built from: the kennel (R15 to R22), counters and flags (R114, R189),
completion records (R367, R368), taking a trap or fault and returning from one (R371 to R386), regions (R404 to R406),
ending a launch, and the issue of one instruction (R202, R361).
-/
namespace Sys2Proof.Machine
open Sys2Proof

/-! ### Snapshots and records -/

/-- A snapshot trigger from a source: 1 SNAP, 2 pin, 3 fault, 4 host; those of one clock make one snapshot (R431). -/
def snapTrigger (s : State) (src : Nat) : State :=
  let c := s.dev.snapctl
  let enabled := match src with | 2 => c.getLsbD 1 | 3 => c.getLsbD 2 | _ => true
  if !c.getLsbD 0 || !enabled then s
  else if c.getLsbD 3 ∧ s.dev.snapLow = some s.clk.toNat then
    { s with dev := { s.dev with snapctl := putBits c 4 4 (min (bitsAt c 4 4) src) } }
  else if c.getLsbD 3 then
    { s with dev := { s.dev with snapctl := putBits c 16 16 (min 65535 (bitsAt c 16 16 + 1)) } }
  else
    { s with dev := { s.dev with snapctl := putBits (putBits c 4 4 src) 3 1 1, snapclk := s.clk, snaps := snapContent s,
                                 snapLow := some s.clk.toNat },
             sent := s.sent ++ [.snapOut true] }

/-- A completion record (R368), its CLK field left for the writing. -/
def mkRecord (tag fault : W64) (status kind queue : Nat) : BitVec 256 :=
  tag ++ fault ++ BitVec.ofNat 16 status ++ BitVec.ofNat 8 kind ++ BitVec.ofNat 8 queue ++ 0#32 ++ 0#64

/-- A record produced for a ring, an EVENT node's with its node: dropped and counted when the ring's EN is 0, else queued on chip (R357,
R367). -/
def produce (s : State) (ring : Nat) (r : BitVec 256) (node : Option (Nat × Nat) := none) : State :=
  let g := nth {} s.rings ring
  if g.ctl.getLsbD 4 then { s with records := s.records ++ [⟨ring, r, node⟩] }
  else { s with rings := modNth s.rings ring (fun g => { g with ctl := putBits g.ctl 8 8 (min 255 (bitsAt g.ctl 8 8 + 1)) }) }
/-- Records that a ring can still take: none while it is off, and the device never passes RHEAD − 1 (R367). -/
def ringFree (g : Ring) : Nat := if g.ctl.getLsbD 4 then 2 ^ (min (bitsAt g.ctl 0 4) 12 + 4) - 1 - (g.tail - g.head).toNat else 0
/-- Records produced for a ring and not yet written. -/
def recordsFor (s : State) (r : Nat) : Nat := (s.records.filter (fun e => e.ring == r)).length
/-- Records in the on-chip queue: those that found their ring full (R367). -/
def onChip (s : State) : Nat := ((List.range 16).map (fun r => recordsFor s r - ringFree (nth {} s.rings r))).sum
/-- Whether a record for a ring must wait: it would find its ring full, and the 256-record on-chip queue has no room (R367). -/
def recordsFull (s : State) (r : Nat) : Bool :=
  (nth {} s.rings r).ctl.getLsbD 4 && decide (ringFree (nth {} s.rings r) ≤ recordsFor s r) && decide (256 ≤ onChip s)

/-! ### The kennel -/

/-- 16-byte entries an item takes (R20, R373). -/
def KItem.units : KItem → Nat
  | .path _ _ => 1 | .join _ _ _ => 1 | .frame _ => 3
/-- 16-byte entries of a kennel. -/
def kUnits (k : List KItem) : Nat := (k.map KItem.units).sum
/-- Entries of a pack that lie in the spill area: all but the newest 32 (R22). -/
def Pack.spilled (x : Pack) : Nat := kUnits x.kennel - 32
/-- Spill entries a launch's packs hold (R22). -/
def State.spillUsed (s : State) (l : Nat) : Nat :=
  ((s.packs.filter (fun x => x.launch == l && !x.retired)).map Pack.spilled).sum
/-- Whether pack `p` can push `n` entries (R22). -/
def State.canPush (s : State) (p n : Nat) : Bool :=
  let x := s.pack p
  let need := kUnits x.kennel + n - 32 - x.spilled
  decide (s.spillUsed x.launch + need ≤ (s.launch x.launch).spillEnt) || need == 0

/-- PUSHK of a path or join entry, stamped with the pack's issue count (R15), which does not yet count the instruction that pushes it
(DESIGN CHOICE, log 115). -/
def Pack.pushJoin (x : Pack) (q : Path) : Pack := { x with kennel := .join (x.stamp % 2 ^ 20) q 0 :: x.kennel }
def Pack.pushPath (x : Pack) (q : Path) : Pack := { x with kennel := .path (x.stamp % 2 ^ 20) q :: x.kennel }

/-- Kennel items above the topmost frame, and the rest (R375). -/
def splitFrame : List KItem → List KItem × List KItem
  | [] => ([], [])
  | .frame f :: k => ([], .frame f :: k)
  | .path t q :: k => let r := splitFrame k; (.path t q :: r.1, r.2)
  | .join t q a :: k => let r := splitFrame k; (.join t q a :: r.1, r.2)
/-- The age of a stamp as a 20-bit wrapping difference (R20). -/
def stampAge (now t : Nat) : Nat := (now + 2 ^ 20 - t % 2 ^ 20) % 2 ^ 20
/-- The path entry with the oldest STAMP, the top-most of equals (R34). -/
def oldestPath (now : Nat) : List KItem → Option (Nat × Path)
  | [] => none
  | .path t q :: k => (match oldestPath now k with
    | some (u, r) => if stampAge now t < stampAge now u then some (u, r) else some (t, q)
    | none => some (t, q))
  | .join _ _ _ :: k => oldestPath now k
  | .frame _ :: k => oldestPath now k
/-- The top-most path entry above the topmost frame with its STAMP, taken out (R17, R375). -/
def takePath : List KItem → Option ((Nat × Path) × List KItem)
  | [] => none
  | .frame _ :: _ => none
  | .path t q :: k => some ((t, q), k)
  | .join t q a :: k => match takePath k with | some (r, k') => some (r, .join t q a :: k') | none => none
/-- Whether there is a path entry above the topmost frame. -/
def hasPath (k : List KItem) : Bool := (takePath k).isSome
/-- Whether there is a path entry anywhere in a kennel (R404). -/
def anyPath (k : List KItem) : Bool := k.any (fun i => match i with | .path _ _ => true | _ => false)

/-- A slot without a path: it keeps when it last issued (R33). -/
def Slot.clear (sl : Slot) : Slot := { last := sl.last }
/-- A slot whose path has left it: its issue count stays until a refill (R34, R36; log 97). -/
def Slot.emptied (sl : Slot) : Slot := { last := sl.last, issued := sl.issued }
/-- A slot that takes a path: its count starts at zero (R34), the pack's issue count being `n` (R36). -/
def Slot.take (sl : Slot) (q : Path) (n : Nat) : Slot := { path := some q, last := sl.last, seen := n }
/-- Whether the count of a slot that a refill gives the path entry `e` goes on: another path entry is left in the kennel `left`, older than
`e`, or of any age where `e` did not wait in the kennel `k0` as a path entry. The entry left then takes a slot within the bound of R36
(DESIGN CHOICE, log 97). -/
def countGoesOn (now : Nat) (k0 : List KItem) (e : Nat × Path) (left : List KItem) : Bool :=
  match oldestPath now (splitFrame left).1 with
  | some (t, _) => !k0.contains (.path e.1 e.2) || decide (stampAge now e.1 < stampAge now t)
  | none => false
/-- A slot that a refill gives the path entry `e` (R17, R34; log 97). -/
def Slot.refilled (sl : Slot) (now n : Nat) (k0 : List KItem) (e : Nat × Path) (left : List KItem) : Slot :=
  { sl.take e.2 n with issued := if countGoesOn now k0 e left then sl.issued else 0 }
/-- One pass of R17, `k0` being the kennel whose path entries have waited. The path that step 1 moves keeps its issue count, and the slot it
leaves has the other's (log 97). -/
def Pack.refill1 (k0 : List KItem) (x : Pack) : Pack :=
  let now := x.stamp % 2 ^ 20
  let x := if x.lead.path.isNone && x.heel.path.isSome
    then { x with lead := { x.heel with last := x.lead.last }, heel := { last := x.heel.last, issued := x.lead.issued } } else x
  let x := if x.heel.path.isNone then
      (match takePath x.kennel with | some (e, k) => { x with heel := x.heel.refilled now x.stamp k0 e k, kennel := k } | none => x) else x
  if x.lead.path.isNone then
    (match takePath x.kennel with | some (e, k) => { x with lead := x.lead.refilled now x.stamp k0 e k, kennel := k } | none => x)
  else x
/-- The refill of empty slots, repeated until nothing changes (R17), once the kennel `k0` has become the pack's. -/
def Pack.refillFrom (k0 : List KItem) (x : Pack) : Pack := ((x.refill1 k0).refill1 k0).refill1 k0
/-- The refill of empty slots from a kennel that no arrival or EXIT has just changed (R17). -/
def Pack.refill (x : Pack) : Pack := x.refillFrom x.kennel

/-- Lanes arriving at the top-most join entry with this PC whose MASK holds them; a complete join becomes a path entry
in place (R16). `none` where there is no such entry. -/
def arriveAt (pc : Nat) (m : Lanes) : List KItem → Option (List KItem)
  | [] => none
  | .frame _ :: _ => none
  | .path t q :: k => (arriveAt pc m k).map (.path t q :: ·)
  | .join t q a :: k =>
    if q.pc = pc ∧ m &&& q.mask = m then
      some ((if a ||| m = q.mask then .path t q else .join t q (a ||| m)) :: k)
    else (arriveAt pc m k).map (.join t q a :: ·)

/-- RPC field of R20: bits [31:3] of the offset, all ones for none. -/
def rpcField : Option Nat → Nat
  | none => 0x1FFFFFFF
  | some a => a / 8 % 2 ^ 29
/-- The RPC a field holds. -/
def ofRpcField (f : Nat) : Option Nat := if f = 0x1FFFFFFF then none else some (8 * f)

/-- Lanes removed from a frame's slot record (R376). -/
def dropRec (r : BitVec 128) (m : Lanes) : BitVec 128 :=
  let keep := BitVec.ofNat 16 (bitsAt r 67 16) &&& ~~~ m
  if keep = 0 then 0 else putBits r 67 16 keep.toNat
/-- EXIT's removal of lanes from every join entry and from frames' slot records: emptied joins go, full joins complete
(R19, R376), and DEPTH counts as many entries fewer below a frame as have gone there (R373). -/
def dropLanes (m : Lanes) : List KItem → List KItem
  | [] => []
  | .path t q :: k => .path t q :: dropLanes m k
  | .join t q a :: k =>
    let mask := q.mask &&& ~~~ m
    let arr := a &&& ~~~ m
    if mask = 0 then dropLanes m k
    else if arr = mask then .path t { q with mask } :: dropLanes m k
    else .join t { q with mask } arr :: dropLanes m k
  | .frame f :: k =>
    let depth := bitsAt f 256 16 - (kUnits k - kUnits (dropLanes m k))
    .frame (putBits (f.extractLsb' 256 128) 0 16 depth ++ dropRec (f.extractLsb' 128 128) m ++ dropRec (f.extractLsb' 0 128) m) :: dropLanes m k

/-- SPLITPATH in one pack (R15): `paths` have ascending targets and non-empty lanes. The issuing slot keeps its issue count, which
bounds the wait of R36 (log 97). -/
def Pack.split (x : Pack) (k rn : Nat) (j : Option Nat) (m : Lanes) (paths : List (Nat × Lanes)) : Pack :=
  let here := fun (x : Pack) (q : Path) => x.modSlot k (fun sl => { sl with path := some q, clause := none })
  match paths with
  | [] => x
  | [t] => here x ⟨t.1, m, j⟩
  | t :: ts =>
    let x := if some rn = j then x else x.pushJoin ⟨rn, m, j⟩
    let x := here x ⟨t.1, t.2, some rn⟩
    let other := (x.slot (1 - k)).path.isNone
    let x := if other then (match ts with
        | u :: _ => x.modSlot (1 - k) (fun sl => sl.take ⟨u.1, u.2, some rn⟩ x.stamp)
        | [] => x) else x
    ((if other then ts.drop 1 else ts)).foldl (fun x u => x.pushPath ⟨u.1, u.2, some rn⟩) x
/-- Kennel entries SPLITPATH pushes (R15, R208). -/
def Pack.splitPushes (x : Pack) (k rn : Nat) (j : Option Nat) (n : Nat) : Nat :=
  if n ≤ 1 then 0
  else (if some rn = j then 0 else 1) + (n - 1 - (if (x.slot (1 - k)).path.isNone then 1 else 0))

/-! ### Frames and modes -/

/-- The topmost frame of a kennel. -/
def topFrame : List KItem → Option (BitVec 384)
  | [] => none
  | .frame f :: _ => some f
  | .path _ _ :: k => topFrame k
  | .join _ _ _ :: k => topFrame k
/-- Kennel items below the topmost frame. -/
def belowFrame : List KItem → List KItem
  | [] => []
  | .frame _ :: k => k
  | .path _ _ :: k => belowFrame k
  | .join _ _ _ :: k => belowFrame k
/-- The kennel cut to the entries below a depth in 16-byte entries (R169, R382, R406). -/
def cutKennel (depth : Nat) : List KItem → List KItem
  | [] => []
  | i :: k => if kUnits (i :: k) ≤ depth then i :: k else cutKennel depth k
/-- PRIV of a frame (R373). -/
def framePriv (f : BitVec 384) : Bool := f.getLsbD 375
/-- Privileged mode: a privileged frame is topmost (R380). -/
def Pack.priv (x : Pack) : Bool := match topFrame x.kennel with | some f => framePriv f | none => false
/-- Running the user handler: a user frame is topmost (R376). -/
def Pack.inUserHandler (x : Pack) : Bool := match topFrame x.kennel with | some f => !framePriv f | none => false
/-- Whether a user frame is on the kennel (R381). -/
def Pack.hasUserFrame (x : Pack) : Bool := x.kennel.any (fun i => match i with | .frame f => !framePriv f | _ => false)
/-- The doublewords of the topmost privileged frame changed by `f` (R381, R382). -/
def modPrivFrame (f : BitVec 384 → BitVec 384) : List KItem → List KItem
  | [] => []
  | .frame b :: k => if framePriv b then .frame (f b) :: k else .frame b :: modPrivFrame f k
  | .path t q :: k => .path t q :: modPrivFrame f k
  | .join t q a :: k => .join t q a :: modPrivFrame f k
/-- The topmost privileged frame. -/
def privFrame : List KItem → Option (BitVec 384)
  | [] => none
  | .frame b :: k => if framePriv b then some b else privFrame k
  | .path _ _ :: k => privFrame k
  | .join _ _ _ :: k => privFrame k

/-- The code base of pack `p`: the launch's, or PHBASE in privileged mode (R20, R380). -/
def State.codeBase (s : State) (p : Nat) : Nat :=
  if (s.pack p).priv then bitsAt (s.part (s.launchOf p).part).phbase 0 57 else (s.launchOf p).codebase

/-- WITHIN of R207: an offset inside the 4 GiB window of R21. -/
def within (off : Int) : Bool := decide (0 ≤ off) && decide (off < 2 ^ 32)
/-- Word `off` above a code base as pack `p` fetches it, through its core's L1 TLB; a fetch from a closed line waits (R126), and one
leaves a held-add window open (R106; DESIGN CHOICE, log 98). -/
def fetchFrom (s : State) (p k base off : Nat) : M W64 := do
  let x := s.pack p
  let l := s.launch x.launch
  let va := base + off
  let m ← probe s (.l1 x.core) l.part l.pasid (waiterOf p k) [(va, false)]
  waitIf (!isBus (m.get va) && closed s (lineOf (m.get va))) s .interlock
  return BitVec.ofNat 64 (memNat s (m.get va) 8)
/-- Word `off` of the code of pack `p`. -/
def fetchCode (s : State) (p k off : Nat) : M W64 := fetchFrom s p k (s.codeBase p) off
/-- ISHEADER of R207. -/
def isHeader (w : W64) : Bool := w.extractLsb' 54 10 == 0#10
/-- The fields of a clause header at `hdr` (R186). -/
def clauseOf (hdr : Nat) (w : W64) (c : Cls) : Clause :=
  ⟨hdr, bitsAt w 3 4 + 1, c, bitsAt w 24 4, bitsAt w 28 4, w.extractLsb' 32 16⟩
/-- The header checks of R187 that need no body word. -/
def headerOk (w : W64) : Bool :=
  let setOk := fun (v : Nat) => !(decide (12 ≤ v) && decide (v ≤ 14))
  bitsAt w 48 6 == 0 && bitsAt w 7 5 == 0 && (Cls.ofCode (w.extractLsb' 0 3)).isSome && setOk (bitsAt w 24 4) &&
  setOk (bitsAt w 28 4) && decide (bitsAt w 32 16 < 2 ^ (bitsAt w 3 4 + 1)) && !(bitsAt w 28 4 == 15 && bitsAt w 32 16 != 0)

/-- F of a clause (R185). -/
def Clause.fall (c : Clause) : Nat := c.hdr + 8 * (c.count + 1)
/-- The body word a PC names. -/
def Clause.word (c : Clause) (pc : Nat) : Nat := (pc - c.hdr) / 8 - 1

/-- The saved PC and HDR field of a slot (R373, R374). -/
def Slot.saved (sl : Slot) : Nat × Nat :=
  match sl.path, sl.clause with
  | some q, some c => if q.pc ≤ c.hdr + 8 then (c.hdr, 0x1FFFFFFF) else (q.pc, c.hdr / 8 % 2 ^ 29)
  | some q, none => (q.pc, 0x1FFFFFFF)
  | none, _ => (0, 0x1FFFFFFF)
/-- A kennel entry (R20). -/
def kEntry (join : Bool) (stamp : Nat) (arr mask : Lanes) (rpc : Option Nat) (pc : Nat) : BitVec 128 :=
  0#8 ++ BitVec.ofBool join ++ BitVec.ofNat 20 stamp ++ arr ++ mask ++ BitVec.ofNat 29 (rpcField rpc) ++ 0#9 ++ BitVec.ofNat 29 (pc / 8)
/-- A slot's record in a frame: the path layout of R20; MASK 0 when empty (R373). -/
def Slot.record (sl : Slot) (stamp : Nat) : BitVec 128 :=
  match sl.path with
  | none => 0
  | some q => kEntry false stamp 0 q.mask q.rpc sl.saved.1
/-- The trap frame of a pack (R373). -/
def Pack.mkFrame (x : Pack) (k cause : Nat) (priv : Bool) : BitVec 384 :=
  (0xA5#8 ++ BitVec.ofBool priv ++ BitVec.ofNat 1 k ++ 0#6 ++ BitVec.ofNat 8 cause ++ BitVec.ofNat 29 x.heel.saved.2 ++
    BitVec.ofNat 29 x.lead.saved.2 ++ 0#30 ++ BitVec.ofNat 16 (kUnits x.kennel)) ++
  (x.heel.record x.stamp ++ x.lead.record x.stamp)

/-- The fault summary (R386). -/
def summaryOf (cause : Nat) (dbl multi : Bool) (pcoff : Nat) : W64 :=
  BitVec.ofNat 8 cause ++ BitVec.ofBool dbl ++ BitVec.ofBool multi ++ 0#22 ++ BitVec.ofNat 32 pcoff

/-- A physical key that a bus address used untranslated leads to. -/
def State.busKey (s : State) (a : Nat) : Nat :=
  match s.target a with | .device ph => ph | .peer ph _ => ph | .host ph => ph | .none => busBase + a

/-- A fault record of pack `p`, with the first one's summary kept for the launch (R383, R386); it is a snapshot source
(R431). `pc` is the saved PC of a slot whose frame was not pushed; else PCOFF comes from the topmost frame. DOUBLE is set by `dbl`
and by a topmost frame whose CAUSE, which no program writes, is DOUBLE; MULTI from the launch's second record on. -/
def faultRecord (s : State) (p : Nat) (dbl : Bool) (pc : Option Nat) : State :=
  let x := s.pack p
  let l := s.launch x.launch
  let q := s.part l.part
  let f := (topFrame x.kennel).getD 0
  let ts := f.getLsbD 374
  let slotRec : BitVec 128 := if ts then f.extractLsb' 128 128 else f.extractLsb' 0 128
  let sum := summaryOf (x.pcause.toNat % 256) (dbl || bitsAt f 360 8 == 0x1C) (decide (0 < l.faults)) (pc.getD (8 * bitsAt slotRec 0 29))
  let plpack := (s.block x.block).b * l.packsPer + x.pk
  let r : BitVec 512 := sum ++ x.pinfo ++ BitVec.ofNat 64 plpack ++ 0#64 ++ f.extractLsb' 256 128 ++ slotRec
  let a := s.busKey (bitsAt q.pfault 0 57 + 64 * (q.pfidx.toNat % 256))
  let s := engineWrite s ((leBytes r.toNat 64).zipIdx.map (fun e => (a + e.2, e.1)))
  let s := s.modPart l.part (fun q => { q with pfidx := q.pfidx + 1 })
  let s := s.modLaunch x.launch (fun l => { l with faults := l.faults + 1, summary := if l.faults = 0 then sum else l.summary })
  snapTrigger s 3

/-! ### Retirement of operations, packs, blocks and launches -/

/-- Operation `id`. -/
def State.op (s : State) (id : Nat) : Option Op := s.ops.find? (fun o => o.id == id)
/-- `s` with operation `id` changed. -/
def State.modOp (s : State) (id : Nat) (f : Op → Op) : State :=
  { s with ops := s.ops.map (fun o => if o.id == id then f o else o) }

/-- The done operations of a pack and class that no older one of the class holds back (R114). -/
def retirable (pack : Option Nat) (k : Option KCls) : List Op → List Op
  | [] => []
  | o :: os => if o.pack == pack && o.k == k then (if o.done then o :: retirable pack k os else []) else retirable pack k os

/-- Decrements of a pack's class retired in issue order, each releasing its flag hold (R114, R189). -/
def retireClass (s : State) (pack : Option Nat) (k : Option KCls) : State :=
  let r := retirable pack k s.ops
  let s := { s with ops := s.ops.filter (fun o => !r.any (fun q => q.id == o.id)) }
  match pack with
  | none => s
  | some p => s.modPack p (fun x => r.foldl (fun x o =>
      let x := match o.k with | some c => { x with k := modNth x.k c.ix (fun n => n - 1) } | none => x
      if o.flag = 15 then x else { x with fholds := modNth x.fholds o.flag (fun n => n - 1) }) x)

/-- Invalidations whose pages no outstanding operation uses are acknowledged (R403). -/
def ackInvals (s : State) : State :=
  let busy := fun (i : Inval) => s.ops.any (fun o => !o.done && s.opPasid o == i.pasid &&
    o.tr.any (fun e => decide (i.base ≤ 4096 * e.1) && decide (4096 * e.1 < i.base + i.size)))
  let ready := s.invals.filter (fun i => !busy i)
  let inRange := fun (t : Tlb) => ready.any (fun i => i.pasid == t.pasid && decide (t.base < i.base + i.size) && decide (i.base < t.base + t.size))
  { s with invals := s.invals.filter busy, tlbs := s.tlbs.filter (fun t => !inRange t),
           sent := s.sent ++ ready.map (fun i => .invalDone i.pasid i.base i.size) }

/-- Whether an operation still writes memory that its launch's completion record reports (R368). -/
def Op.writesMem (o : Op) : Bool :=
  !o.done && (match o.body with
    | .msta _ _ false _ _ => true | .tbind _ _ _ => true | .hframe _ _ _ _ _ _ => true | .store _ _ => true | .post _ => true
    | .atom _ _ _ _ => true | .adds _ _ _ _ => true | .hins _ _ _ => true | .cmo _ _ _ => true | _ => false)
/-- Whether an operation is a store that an open region holds (R405). -/
def Op.isHeld (o : Op) : Bool := match o.body with | .store [] _ => true | _ => false
/-- Whether a pack has outstanding copies or Cellar jobs (R12). -/
def State.packBusy (s : State) (p : Nat) : Bool :=
  s.ops.any (fun o => o.pack == some p && !o.done && (match o.body with | .copy _ => true | .job _ => true | _ => false))

/-- Blocks whose packs have retired and whose copies and jobs have completed retire (R12). -/
def retireBlocks (s : State) : State :=
  { s with blocks := s.blocks.zipIdx.map (fun e =>
      if e.1.retired then e.1
      else
        let mine := s.packs.zipIdx.filter (fun x => x.1.block == e.2)
        if !mine.isEmpty && mine.all (fun x => x.1.retired && !s.packBusy x.2) then { e.1 with retired := true } else e.1) }

/-- The kernel node of a replay marked complete with its status (R357, R359); the edges go out with NODE_COMPLETE. -/
def nodeStatus (s : State) (node : Option (Nat × Nat)) (st : Nat) : State :=
  match node with
  | none => s
  | some (r, n) => { s with replays := modNth s.replays r (fun q =>
      { q with nodes := modNth q.nodes n (fun m => { m with stat := .acted, status := st }) }) }

/-- Number of blocks of a launch's grid. -/
def Launch.blocks (l : Launch) : Nat := l.gx * l.gy * l.gz

/-- A launch retires: its windows close, its completion record is produced, its command or node completes (R106, R352,
R368, R383). -/
def retireLaunch (s : State) (i : Nat) (status : Nat) (fault : W64) : State :=
  let l := s.launch i
  let s := closeWindows s ((s.mem.windows.filter (fun w => w.2.launch == i)).map (·.1))
  let s := s.modLaunch i (fun l => { l with stat := .retired })
  let s := produce s l.ring (mkRecord l.tag fault status 0 l.queue)
  match l.node with
  | some n => nodeStatus s (some n) status
  | none => { s with queues := modNth s.queues l.queue (fun q => { q with running := q.running - 1 }) }

/-- A pack that stops for good: its slots wait for nothing any more, its open region goes, and its unresolved guard slots resolve false
(R154, R383). -/
def Pack.stopAll (x : Pack) : Pack :=
  { x with retired := true, region := none, gs := x.gs.map (fun v => some (v.getD false)),
           lead := { x.lead with stall := none }, heel := { x.heel with stall := none } }
/-- Whether a slot of an ending launch's pack stands at a header or is blocked (R383). -/
def Slot.idle (sl : Slot) : Bool := sl.path.isNone || sl.clause.isNone || sl.blocked
/-- Whether a pack stops now because its launch is ending (R383). -/
def State.stopsNow (s : State) (x : Pack) : Bool :=
  (s.launch x.launch).stat == .ending && !x.retired && x.lead.idle && x.heel.idle
/-- Packs of an ending launch that stand at a header or are blocked stop for good; what they waited for in the merge table is given
up, their region buffers are discarded and their MMA-class operations abandoned (R383, R396). -/
def stopEnding (s : State) : State :=
  let ending := s.launches.any (fun l => l.stat == .ending)
  if !ending then s
  else
    let gone := fun (o : Op) => (s.launch o.launch).stat == .ending && (o.isHeld || (match o.body with
      | .mma _ => true | .mate _ => true | .mzero _ _ _ => true | .mlda _ _ _ _ _ => true
      | .msta _ _ _ _ _ => true | .wbld _ _ _ => true | _ => false))
    let quit := fun (w : Nat) => if w < 2 ^ 32 then s.stopsNow (s.pack (w / 2)) else s.ops.any (fun o => opWaiter o.id == w && gone o)
    let t := s.quitMerge quit
    { t with packs := s.packs.map (fun x => if s.stopsNow x then x.stopAll else x), ops := s.ops.filter (fun o => !gone o) }

/-- One launch looked at: running with every block retired and every memory write performed, or ending with every pack stopped and
every operation complete, it retires unless its record must wait (R12, R367, R368, R383). -/
def retireIfDone (s : State) (i : Nat) : State :=
  let l := s.launch i
  let mine := s.packs.filter (fun x => x.launch == i)
  let blocksDone := s.blocks.all (fun b => b.launch != i || b.retired)
  if recordsFull s l.ring then s
  else match l.stat with
  | .running =>
    if l.nextBlock = l.blocks ∧ blocksDone ∧ s.ops.any (fun o => o.launch == i && o.node.isNone && o.writesMem) = false
    then retireLaunch s i 0 l.summary else s
  | .ending =>
    if mine.all (·.retired) && !s.ops.any (fun o => o.launch == i && o.node.isNone && !o.done) then
      let sum := if 1 < l.faults then l.summary ||| (1#64 <<< 54) else l.summary
      let s := { s with blocks := s.blocks.map (fun b => if b.launch == i then { b with retired := true } else b) }
      retireLaunch s i 1 sum
    else s
  | .window => s
  | .retired => s

/-- Everything that follows from operations or packs having finished. -/
def settle (s : State) : State :=
  let s := retireBlocks (ackInvals (stopEnding s))
  (List.range s.launches.length).foldl retireIfDone s

/-- Operation `id` completes: its decrement and those it held back retire in order (R114). -/
def completeOp (s : State) (id : Nat) : State :=
  match s.op id with
  | none => s
  | some o =>
    let mates := s.ops.filter (fun q => match q.body with | .mate m => m == id | _ => false)
    let s := { s with ops := s.ops.map (fun q => if q.id == id || mates.any (fun m => m.id == q.id)
                 then { q with done := true, shut := [] } else q) }
    let s := retireClass s o.pack o.k
    settle (mates.foldl (fun s m => retireClass s m.pack m.k) s)

/-- The launch of a pack ends as HALT ends it, a fault record written (R383, R385); what follows is settled by the caller, once for
all members that end it. -/
def endLaunch (s : State) (p : Nat) (dbl : Bool) (pc : Option Nat) : State :=
  let s := faultRecord s p dbl pc
  s.modLaunch (s.pack p).launch (fun l => { l with stat := .ending, failed := true })
/-- What follows where a launch is ending. -/
def settleEnded (s : State) : State := if s.launches.any (fun l => l.stat == .ending) then settle s else s

/-! ### Taking a trap or fault -/

/-- A frame pushed and the handler entered at `entry` with the trapping path's lanes (R374, R375). -/
def Pack.enter (x : Pack) (k cause : Nat) (priv : Bool) (entry : Nat) : Pack :=
  let m := match (x.slot k).path with | some q => q.mask | none => 0
  { x with kennel := .frame (x.mkFrame k cause priv) :: x.kennel, rewritten := x.rewritten && !priv,
           lead := x.lead.take ⟨entry, m, none⟩ x.stamp, heel := x.heel.clear }

/-- The registers of R371: TRAPC and TRAPA. -/
def Pack.setTrap (x : Pack) (cause : Nat) (info : W64) : Pack := { x with trapc := BitVec.ofNat 64 cause, trapa := info }
/-- A system fault's registers (R371). -/
def Pack.setFault (x : Pack) (cause : Nat) (info : W64) : Pack := { x with pcause := BitVec.ofNat 64 cause, pinfo := info }

/-- Both slots stopped where they stand (R374). -/
def Pack.stopSlots (x : Pack) : Pack :=
  { x with lead := { x.lead with clause := none, stall := none }, heel := { x.heel with clause := none, stall := none } }
/-- The launch of a pack ended by a fault whose frame is not pushed (R374, R377, R385). -/
def endAtFault (s : State) (p : Nat) (dbl : Bool) (pc : Option Nat) : State :=
  endLaunch (s.modPack p (fun x => x.stopSlots)) p dbl pc

/-- The privileged frame of a system fault pushed in pack `p`, or the launch ended where there is no handler or no room
(R374, R380, R385); the registers are already written. -/
def enterPriv (s : State) (p k cause : Nat) : State :=
  let q := s.part (s.launchOf p).part
  if !s.canPush p 3 then
    endAtFault (s.modPack p (fun x => (x.setTrap cKENNELFULL 0).setFault cKENNELFULL 0)) p (cause == cDOUBLE) (some ((s.pack p).slot k).saved.1)
  else
    let s := s.modPack p (fun x => x.enter k cause true q.ptrapv.toNat)
    if q.ptrapv = 0 then endLaunch s p false none else s

/-- TAKING A TRAP OR FAULT in pack `p` by the path of slot `k`, whose slot already holds the PC to save (R371 to R380). In privileged
mode the cause writes its registers and ends the launch; a user cause leaves PCAUSE and PINFO as they stand there (R371, R377). -/
def takeTrap (s : State) (p k cause : Nat) (info : W64) : State :=
  let x := s.pack p
  if x.priv then
    endAtFault (s.modPack p (fun x => let x := x.setTrap cause info; if 0x10 ≤ cause then x.setFault cause info else x)) p true none
  else if x.inUserHandler then
    enterPriv (s.modPack p (fun x => (x.setTrap cause info).setFault cDOUBLE (BitVec.ofNat 64 cause))) p k cDOUBLE
  else if 0x10 ≤ cause then
    enterPriv (s.modPack p (fun x => (x.setTrap cause info).setFault cause info)) p k cause
  else if x.trapv = 0 then
    enterPriv (s.modPack p (fun x => (x.setTrap cUNHANDLED info).setFault cUNHANDLED (BitVec.ofNat 64 cause))) p k cUNHANDLED
  else if !s.canPush p 3 then
    endAtFault (s.modPack p (fun x => (x.setTrap cKENNELFULL 0).setFault cKENNELFULL 0)) p false (some ((s.pack p).slot k).saved.1)
  else s.modPack p (fun x => (x.setTrap cause info).enter k cause false x.trapv.toNat)

/-- A slot rebuilt from its frame record and HDR field, its code read above the base `base`: a saved PC that is a body word of the clause
HDR names goes on there, one that is a header restarts its clause. `none` where a record breaks R20, the saved PC is neither, or a frame
that PSWR has rewritten (`wr`) gives a saved PC as a header where none stands (R376, R382). Absent lanes stay out (R8); a rewritten MASK
is otherwise taken as it stands (log 15). -/
def restoreSlot (s : State) (p k base : Nat) (wr : Bool) (old : Slot) (r : BitVec 128) (hdr : Nat) : M (Option Slot) :=
  let x := s.pack p
  let mask := BitVec.ofNat 16 (bitsAt r 67 16) &&& x.present
  let q : Path := ⟨8 * bitsAt r 0 29, mask, ofRpcField (bitsAt r 38 29)⟩
  if bitsAt r 119 9 ≠ 0 ∨ bitsAt r 83 16 ≠ 0 ∨ bitsAt r 29 9 ≠ 0 then .ok none
  else if mask = 0 then .ok (some old.clear)
  else if hdr = 0x1FFFFFFF then do
    let w ← if wr then fetchFrom s p k base q.pc else .ok 0
    return if wr && !isHeader w then none else some (old.take q x.stamp)
  else do
    let w ← fetchFrom s p k base (8 * hdr)
    let cl := clauseOf (8 * hdr) w ((Cls.ofCode (w.extractLsb' 0 3)).getD .alu)
    if isHeader w && headerOk w && decide (8 * hdr + 8 ≤ q.pc) && decide (q.pc < cl.fall) then
      return some { old.take q x.stamp with clause := some cl }
    else do
      let v ← fetchFrom s p k base q.pc
      return if isHeader v then some (old.take q x.stamp) else none

/-- RETURNING FROM A TRAP OR FAULT: the topmost frame popped with everything above it, both slots restored, the returning one having issued
(R33, R309, R376, R385). A rewritten frame that is not legal raises ILLOP at the return, and one whose DEPTH is rewritten sets the kennel's
top there: the entries below it stay, the frame's own among them, and there are none above the frame (R373, R382; DESIGN CHOICE, log
132). -/
def popFrame (s : State) (p k : Nat) (at' : W64) : M State := do
  let x := s.pack p
  match topFrame x.kennel with
  | none => .error (.exc { cause := cILLOP, info := at', who := [(p, at')] })
  | some f =>
    let wr := x.rewritten && framePriv f
    let kennel := if wr then cutKennel (bitsAt f 256 16) (.frame f :: belowFrame x.kennel) else belowFrame x.kennel
    let after := s.modPack p (fun x => { x with kennel, rewritten := x.rewritten && (!framePriv f || kennel.head? == some (.frame f)) })
    let base := after.codeBase p
    let lead ← restoreSlot s p k base wr x.lead (f.extractLsb' 0 128) (bitsAt f 302 29)
    let heel ← restoreSlot s p k base wr x.heel (f.extractLsb' 128 128) (bitsAt f 331 29)
    match lead, heel with
    | some a, some b => return after.modPack p (fun x =>
        (({ x with lead := a, heel := b }).modSlot k (fun sl => { sl with last := some (x.stamp + 1) })).refill)
    | _, _ => .error (.exc { cause := cILLOP, info := at', who := [(p, at')] })

/-! ### Regions -/

/-- Pages of loads of an open region that have no translation yet (R405). -/
def State.loosePages (s : State) (p : Nat) : List (Nat × Bool) :=
  s.ops.flatMap (fun o => if o.pack == some p && !o.done then (match o.body with
    | .load accs _ _ _ _ _ => (accs.filter (fun a => (o.tr.at a.va).isNone)).map (fun a => (a.va, false))
    | _ => []) else [])

/-- A held store's operation, complete once its region has discarded it. -/
def dropHeld (s : State) (p : Nat) : State :=
  let s := { s with ops := s.ops.map (fun o => if o.pack == some p && !o.done && o.isHeld then { o with done := true } else o) }
  retireClass s (some p) (some .st)

/-- The members of a pack's team, ascending, retired ones included (R23). -/
def State.team (s : State) (p : Nat) : List Nat :=
  let n := (s.launchOf p).teamW / 16
  let p0 := p - (s.pack p).pk % n
  (List.range n).map (p0 + ·)
/-- The members that have not retired. -/
def State.liveTeam (s : State) (p : Nat) : List Nat := (s.team p).filter (fun q => !(s.pack q).retired)
/-- The bytes that a region buffers, by virtual address (R405). -/
def Region.flat (r : Region) : List (Nat × BitVec 8) := r.lines.flatMap (fun n => n.bytes.map (fun b => (n.addr + b.1, b.2)))
/-- The addresses whose translations the end of a pack's open region needs: its buffered lines, and its loads that still lack theirs
(R406). -/
def State.regionWants (s : State) (p : Nat) : List (Nat × Bool) :=
  match (s.pack p).region with
  | some r => r.lines.flatMap (fun n => (n.bytes.take 1).map (fun b => (n.addr + b.1, true))) ++ s.loosePages p
  | none => []

/-- A region aborts: buffered stores discarded, the pack set back to the restart point with its recorded LCLK, and
waiting for its requeue; a ganged team splits (R25, R406). -/
def abortRegion (s : State) (p : Nat) : State :=
  match (s.pack p).region with
  | none => s
  | some r =>
    let want := s.regionWants p
    let stay := fun (e : Pending) => e.slot.isNone || e.cause != cXDRIFT
    let s := dropHeld s p
    let s := (s.liveTeam p).foldl (fun s q => s.modPack q (fun x => { x with gang := false })) s
    s.modPack p (fun x => { x with
      lead := { x.lead.take ⟨r.pc, r.mask, r.rpc⟩ x.stamp with stall := some .region, since := s.clk.toNat }, heel := x.heel.clear,
      kennel := cutKennel r.depth x.kennel, lclk := r.lclk, pending := (x.pending.filter stay).map (fun e => { e with slot := none }),
      region := some { r with lines := [], aborted := true, wants := if r.aborted then r.wants else want } })

/-- The end of an open region: with every translation in hand its stores proceed to registration in program order, each with its own
bytes; a page fault aborts it (R81, R115, R222, R406). -/
def endRegion (s : State) (p k : Nat) : M State :=
  let x := s.pack p
  match x.region with
  | none => .ok s
  | some r =>
    if r.aborted then .error (.stall s .region)
    else
      let l := s.launch x.launch
      let want := s.regionWants p
      match probe s (.l1 x.core) l.part l.pasid (waiterOf p k) want with
      | .error (.exc e) =>
        let t := abortRegion s p
        .error (.stall (t.modPack p (fun x => { x with pending := x.pending ++ [{ cause := e.cause, info := e.info, lanes := r.mask }] })) .region)
      | .error (.stall t w) =>
        if t.merges.any (fun m => m.st == .pri && want.any (fun a => a.1 / 4096 == m.page) && m.pasid == l.pasid)
        then .error (.stall (abortRegion t p) .region)
        else .error (.stall t w)
      | .error (.handled t) => .ok t
      | .ok m =>
        let now := fun (o : Op) => if o.pack != some p || o.done then o else match o.body with
          | .store [] a => { o with tr := m, vbytes := [], body := .store (o.vbytes.map (fun b => (m.get b.1, b.2))) a }
          | .load _ _ _ _ _ _ => { o with tr := o.tr ++ m.filter (fun e => !o.tr.any (fun f => f.1 == e.1)) }
          | _ => o
        .ok ((({ s with ops := s.ops.map now } : State).fillTc (.l1 x.core) l.pasid want).modPack p (fun x => { x with region := none }))
/-- The regions of several packs ended in turn. -/
def endRegions (s : State) (k : Nat) : List Nat → M State
  | [] => .ok s
  | p :: ps => do let s ← endRegion s p k; endRegions s k ps

/-! ### The issue of one instruction -/

/-- The issue: the member packs (one unless ganged), the slot, the clause and the body word's offset. -/
structure Cx where
  packs : List Nat
  slot : Nat
  pc : Nat
  cl : Clause
  deriving DecidableEq, Repr

/-- F of the issuing clause (R185). -/
def Cx.fall (cx : Cx) : Nat := cx.cl.fall
/-- The offset of the instruction's word, as ILLOP reports it (R371). -/
def Cx.at (cx : Cx) : W64 := BitVec.ofNat 64 cx.pc

/-- The team lane of lane `l` of pack `p` (R23). -/
def State.teamLane (s : State) (p l : Nat) : Nat := 16 * ((s.pack p).pk % ((s.launchOf p).teamW / 16)) + l

/-- Step 1 of R202: class, position and mode (R188, R201). -/
def placeOk (i : Instr) (cx : Cx) (priv : Bool) : Bool :=
  (match i.cls with | none => true | some c => c == cx.cl.cls) &&
  decide (cx.cl.word cx.pc + i.words ≤ cx.cl.count) &&
  (!i.ends || cx.cl.word cx.pc + i.words == cx.cl.count) && (!i.privOnly || priv)

/-- Whether an operation will write registers or slots for pack `p`: its own, or an HFRAME or GDLD of its ganged team (R93, R285). -/
def Op.forPack (o : Op) (p : Nat) : Bool :=
  o.pack == some p || (match o.body with | .hframe _ _ ps _ _ _ => ps.contains p | .gdld _ _ _ ps => ps.contains p | _ => false)
/-- Registers and descriptor slots that an outstanding operation of the pack will still write (R93, R114, R268). -/
def interlocked (s : State) (i : Instr) (p : Nat) : Bool :=
  let vs := i.operands.flatMap Operand.vuse
  let ss := i.operands.flatMap Operand.suse
  let ds := i.operands.flatMap Operand.duse
  s.ops.any (fun o => o.forPack p && !o.done && (o.dv.any vs.contains || o.ds.any ss.contains ||
    (match o.body with | .gdld d _ _ _ => ds.contains d | _ => false)))

/-- The guard of the lanes of a mask, per lane (R14, R190). -/
def Pack.guardLanes (x : Pack) (g : Guard) : Lanes :=
  let v := x.pget (g.toNat % 8)
  if g.getLsbD 3 then ~~~ v else v
/-- The lane a uniform condition is read in: the lowest of MASK, or lane 0 (R14). -/
def lowLane (m : Lanes) : Nat := match lanesOf m with | l :: _ => l | [] => 0
/-- The path of the issuing slot. -/
def State.path (s : State) (p k : Nat) : Path := (((s.pack p).slot k).path).getD ⟨0, 0, none⟩
/-- The execute mask of a member (R14). -/
def State.active (s : State) (cx : Cx) (g : Guard) (p : Nat) : Lanes :=
  (s.path p cx.slot).mask &&& (s.pack p).guardLanes g
/-- The uniform guard condition of a member (R14). -/
def State.ucond (s : State) (cx : Cx) (g : Guard) (p : Nat) : Bool :=
  ((s.pack p).guardLanes g).getLsbD (lowLane (s.path p cx.slot).mask)
/-- Whether any member has an active lane. -/
def State.anyActive (s : State) (cx : Cx) (g : Guard) : Bool := cx.packs.any (fun p => s.active cx g p != 0)

/-- Whether an instruction is YIELD. -/
def isYield (i : Instr) : Bool := match i with | .yield _ => true | _ => false
/-- Retirement of the instruction in one member: LCLK and the issue counts (R34 to R36, R355, R361); the PC passes the words of
an instruction that does not end its clause (R185). -/
def retireIn (i : Instr) (cx : Cx) (clk : Nat) (x : Pack) : Pack :=
  let x := { x with lclk := x.lclk + 1, stamp := x.stamp + 1, last := clk, forced := false, uncounted := x.uncounted && isYield i,
                    lastOn := mapPut x.lastOn ((x.slot cx.slot).port.getD 0) (clk, cx.slot, cx.pc) }
  if i.ends then x
  else x.modSlot cx.slot (fun sl =>
    match sl.path with
    | none => sl
    | some q =>
      let pc := cx.pc + 8 * i.words
      { sl with path := some { q with pc }, clause := if pc = cx.fall then none else sl.clause,
                issued := sl.issued + 1, last := some x.stamp, stall := none, seen := x.stamp })
/-- The instruction retires in every member. -/
def retireAll (i : Instr) (cx : Cx) (s : State) : State :=
  cx.packs.foldl (fun s p => s.modPack p (retireIn i cx s.clk.toNat)) s

/-- Whether a wait takes a slot from its port: one that another path of the same quarter may have to end. What a rule makes wait as an
operand interlock stalls the clause in place, on its port (R27, R31, R37, R86, R114, R167, R189, R402; log 105). -/
def Stall.leaves : Stall → Bool
  | .waitk => true | .bwait _ => true | .collective => true | .det => true | .region => true
  | .slpt => false | .xmv => false | .interlock => false | .full => false | .mshr => false | .xlate => false | .rel => false | .engine => false | .queue => false
/-- A slot blocked, its waiting counted from when it began; an XMV's and an arrival's at a collective stay what they are (R27, R34, R37,
R301). A clause that leaves its port goes on on that port (R31; log 105). -/
def Slot.block (sl : Slot) (w : Stall) (clk : Nat) : Slot :=
  { sl with stall := if sl.stall = some .xmv ∨ sl.stall = some .collective then sl.stall else some w, since := if sl.blocked then sl.since else clk,
            away := sl.away || w.leaves }

/-- What comes before a trap or fault is taken in packs by their slot `k`: an XMV that the other slot has issued completes, and an open
region ends (R301, R374, R404; DEDUCED, log 124). -/
def beforeTrap (s : State) (k : Nat) (ps : List Nat) : M State := do
  waitIf (ps.any (fun p => ((s.pack p).slot (1 - k)).stall == some .xmv)) s .interlock
  endRegions s k ps
/-- A cause taken at an instruction: the team splits, and each member that raised it takes it (R372). -/
def takeExn (cx : Cx) (s : State) (e : Exn) : State :=
  let who := if e.who.isEmpty then cx.packs.map (fun p => (p, e.info)) else e.who
  match beforeTrap s cx.slot (who.map (·.1)) with
  | .ok t =>
    let t := if 1 < cx.packs.length then cx.packs.foldl (fun t p => t.modPack p (fun x => { x with gang := false })) t else t
    let t := match e.resume with
      | some pc => who.foldl (fun t p => t.modPack p.1 (fun x => x.modSlot cx.slot (fun sl =>
          { sl with path := sl.path.map (fun q => { q with pc }), clause := none, last := some (x.stamp + 1) }))) t
      | none => t
    settleEnded (who.foldl (fun t p => takeTrap (t.leaveMerge (waiterOf p.1 cx.slot)) p.1 cx.slot e.cause p.2) t)
  | .error (.stall t w) => cx.packs.foldl (fun t p => t.modSlot p cx.slot (fun sl => sl.block w t.clk.toNat)) t
  | .error (.exc _) => s
  | .error (.handled t) => t
/-- A cause that is taken where slot `k` of pack `p` stands, taken once nothing comes before it (R143, R301, R374); a region that aborts
instead leaves it to the next header, or to the XMV run again. -/
def takeNow (s : State) (p k : Nat) (e : Pending) : State :=
  match beforeTrap s k [p] with
  | .ok t =>
    let cx : Cx := ⟨if (s.pack p).gang then s.liveTeam p else [p], k, (((s.pack p).slot k).path.map (·.pc)).getD 0,
      (((s.pack p).slot k).clause).getD ⟨0, 0, .alu, 15, 15, 0⟩⟩
    takeExn cx (t.modPack p (fun x => { x with pending := x.pending.erase e })) { cause := e.cause, info := e.info, who := [(p, e.info)] }
  | .error (.stall t _) => t
  | .error (.exc _) => s
  | .error (.handled t) => t

/-- What an issue comes to. -/
def finish (i : Instr) (cx : Cx) (s : State) : M State → Host.Outcome State Fault Refusal
  | .ok t => .next (retireAll i cx (cx.packs.foldl (fun t p => t.leaveMerge (waiterOf p cx.slot)) t))
  | .error (.stall t w) => .next (cx.packs.foldl (fun t p => t.modSlot p cx.slot (fun sl => sl.block w t.clk.toNat)) t)
  | .error (.exc e) => .next (takeExn cx s e)
  | .error (.handled t) => .next t

/-- The issue that the focus names: the path inside a clause, with its live team members when it issues ganged; in a
`.det` launch a ganged synchronising instruction is issued member by member (R24, R27, R362). -/
def cxOf (i : Instr) (s : State) : Option (Cx × State) :=
  let p := s.focus.1
  let x := s.pack p
  match (x.slot s.focus.2).path, (x.slot s.focus.2).clause with
  | some q, some c =>
    if x.retired || x.stopped then none
    else
      let mates := s.liveTeam p
      if x.gang && decide (1 < mates.length) then
        if i.sync && (s.launch x.launch).det then
          some (⟨[p], s.focus.2, q.pc, c⟩, mates.foldl (fun s m => s.modPack m (fun y => { y with gang := false })) s)
        else some (⟨mates, s.focus.2, q.pc, c⟩, s)
      else some (⟨[p], s.focus.2, q.pc, c⟩, s)
  | _, _ => none

/-- Steps 1 and 2 of R202 and the interlocks of R114, then the instruction's body. -/
def guarded (i : Instr) (cx : Cx) (s : State) (body : Cx → State → M State) : M State :=
  if !cx.packs.all (fun p => placeOk i cx (s.pack p).priv) || !i.wellFormed ||
      !cx.packs.all (fun p => decide (i.vtop ≤ (s.pack p).alloc)) then raise cILLOP cx.at
  else if cx.packs.any (interlocked s i) then .error (.stall s .interlock)
  else body cx s

/-- THE ISSUE OF AN INSTRUCTION at the focus, with its body. -/
def issue (i : Instr) (s : State) (body : Cx → State → M State) : Host.Outcome State Fault Refusal :=
  match cxOf i s with
  | none => .fault .noPath
  | some (cx, t) => finish i cx t (guarded i cx t body)

/-- A pack's class counter and the flag that a counted operation at the body word holds (R189). -/
def Cx.flag (cx : Cx) : Nat := if cx.cl.selB.getLsbD (cx.cl.word cx.pc) then cx.cl.setB else cx.cl.setA
/-- Whether a pack can count one more operation of a class: counter and hold below 63 (R114, R189). -/
def canCount (s : State) (cx : Cx) (p : Nat) (k : KCls) : Bool :=
  let x := s.pack p
  decide (nth 0 x.k k.ix < 63) && (cx.flag == 15 || decide (nth 0 x.fholds cx.flag < 63))

/-- An operation issued and counted in pack `p`, as one of the group `grp` (R113, R189), with what an open region buffers at its issue,
and a held store with its own bytes (R405). -/
def addOp (s : State) (cx : Cx) (grp p : Nat) (k : KCls) (tr : PMap) (dv ds : List Nat) (body : Body)
    (vb : List (Nat × BitVec 8) := []) : State :=
  let r := (s.pack p).region
  let o : Op := { id := s.nextOp, grp := grp, pack := some p, launch := (s.pack p).launch, k := some k, flag := cx.flag, tr := tr, dv := dv, ds := ds,
                  fwd := match r with | some r => r.flat | none => [], vbytes := vb, body := body }
  let s := { s with ops := s.ops ++ [o], nextOp := s.nextOp + 1 }
  s.modPack p (fun x =>
    let h := if cx.flag = 15 then x.fholds else modNth x.fholds cx.flag (fun n => n + 1)
    { x with k := modNth x.k k.ix (fun n => n + 1), fholds := h })

/-- Whether a pack has operations of classes LD, ST, ATOM or ISPL not yet performed (R121). -/
def relBusy (s : State) (p : Nat) : Bool :=
  s.ops.any (fun o => o.pack == some p && !o.done && (o.k == some .ld || o.k == some .st))

/-- Whether, of these, other than stores that the pack's open region holds (R215). -/
def exitBusy (s : State) (p : Nat) : Bool :=
  s.ops.any (fun o => o.pack == some p && !o.done && !o.isHeld && (o.k == some .ld || o.k == some .st))

/-- Outstanding copies of a block that name a barrier (R363). -/
def copiesOn (s : State) (blk b : Nat) : Nat :=
  (s.ops.filter (fun o => match o.pack, o.body with
    | some p, .copy c => (s.pack p).block == blk && c.bar == b && !o.done && !c.discarded
    | _, _ => false)).length
/-- The slots of a pack that have arrived at collectives, with the addresses where they wait, the earlier arrival first (R27). -/
def collSlots (s : State) (p : Nat) : List (Nat × Nat) :=
  let x := s.pack p
  let one := fun k => match (x.slot k).path, (x.slot k).stall with
    | some q, some .collective => [(k, s.codeBase p + q.pc)]
    | _, _ => []
  if x.heel.came < x.lead.came then one 1 ++ one 0 else one 0 ++ one 1
/-- The slots of a pack that have arrived at the collective at an address, the earlier arrival first: the first stands in the collective's
present run, the second in the one after it (R27). -/
def arrivedAt (s : State) (p a : Nat) : List Nat := ((collSlots s p).filter (fun e => e.2 == a)).map (·.1)
/-- Whether every live member of a team has come to run `n`, from 0, of the collective at an address (R27). -/
def runComplete (s : State) (ps : List Nat) (a n : Nat) : Bool := ps.all (fun q => decide (n < (arrivedAt s q a).length))
/-- Whether every live member of a pack's team has arrived at the run that slot `k` of the pack waits for (R27, R364). -/
def teamArrived (s : State) (p k : Nat) : Bool :=
  match (collSlots s p).find? (fun e => e.1 == k) with
  | some e => runComplete s (s.liveTeam p) e.2 ((arrivedAt s p e.2).idxOf k)
  | none => false
/-- LCLK of every live member of a `.det` launch's team set to the largest among the members, retired ones included, and `least`
(R27, R364). -/
def levelLclk (s : State) (p least : Nat) : State :=
  let top := (s.team p).foldl (fun m q => max m (s.pack q).lclk.toNat) least
  if (s.launchOf p).det then (s.liveTeam p).foldl (fun s q => s.modPack q (fun x => { x with lclk := BitVec.ofNat 64 top })) s else s
/-- The retirement of pack `p`, by an instruction that still counts in its LCLK, as the last arrival at a collective of its team (R27,
R361, R364). -/
def lastArrival (s : State) (p : Nat) : State :=
  if (s.liveTeam p).any (fun q => teamArrived s q 0 || teamArrived s q 1) then levelLclk s p ((s.pack p).lclk.toNat + 1) else s
/-- Whether every live slot of a pack waits at a collective that not every member has reached, or in BWAIT on a barrier that its
arrivals and outstanding copies do not yet fill (R363, R364). -/
def isExcluded (s : State) (p : Nat) : Bool :=
  let x := s.pack p
  [0, 1].all (fun k => (x.slot k).path.isNone || (match (x.slot k).stall with
    | some .collective => !teamArrived s p k
    | some (.bwait b) =>
      let bar := nth {} (s.block x.block).bars b
      decide (bar.arr + copiesOn s x.block b < bar.expect)
    | _ => false))
/-- The grid-wide logical pack index (R7). -/
def State.lpack (s : State) (p : Nat) : Nat := (s.blockOf p).b * (s.launchOf p).packsPer + (s.pack p).pk
/-- Whether pack `p` has the lowest key of its `.det` launch (R363). -/
def detTurn (s : State) (p : Nat) : Bool :=
  let me := s.pack p
  s.packs.zipIdx.all (fun e => e.2 == p || e.1.launch != me.launch || e.1.retired || isExcluded s e.2 ||
    decide (me.lclk < e.1.lclk) || (me.lclk == e.1.lclk && decide (s.lpack p < s.lpack e.2)))
/-- A synchronising operation of a `.det` launch waits for its turn (R362, R363). -/
def awaitTurn (s : State) (p : Nat) : M Unit := waitIf ((s.launchOf p).det && !detTurn s p) s .det

/-- An event that is due gives a next state. -/
def due (name : String) (r : Option State) : Host.Outcome State Fault Refusal :=
  match r with
  | some t => .next t
  | none => .fault (.notDue name)

end Sys2Proof.Machine
end

