-- ==== Sys2Proof/Machine/Operands.lean ====
section
/-!
DEFINITION. The operand forms: vector and scalar sources, the constant table (R191, R192), predicates (R207), typed
integers (R207), elements (R45), effective addresses (R206), and the per-lane writing of destinations (R237).
-/
namespace Sys2Proof.Machine
open Sys2Proof

/-- The FP32 column of the table "Constant table", codes 480 to 511 in order (R192). -/
def constF32 : List W32 :=
  [0x00000000, 0x3F800000, 0xBF800000, 0x40000000, 0x40400000, 0x40800000, 0x41000000, 0x41800000,
   0x41200000, 0x42FE0000, 0x43800000, 0x477FFF00, 0xC0000000, 0x3F000000, 0x3E800000, 0x3E000000,
   0x3FC00000, 0x3F400000, 0xBF000000, 0x80000000, 0x7F800000, 0xFF800000, 0x7FC00000, 0x7F7FFFFF,
   0x00800000, 0x3F317218, 0x3FB8AA3B, 0x40490FDB, 0x3FB504F3, 0xFF7FFFFF, 0xBFC00000, 0x3DCCCCCD]
/-- The Integer column of the table "Constant table" (R192). -/
def constInt : List Int :=
  [0, 1, -1, 2, 3, 4, 8, 16, 10, 127, 256, 65535, -2, 32, 64, 128, 255, 512, 1024, 4096, 2147483647, -2147483648,
   15, 31, 63, 7, 5, 6, 12, 24, 48, 96]

/-- The column of the constant table that an operand's type reads (R192). -/
inductive OpTy where
  | fp | int
  deriving DecidableEq, Repr

/-- SRCV: lane `l` of a vector source field (R206). -/
def Pack.srcv (x : Pack) (ty : OpTy) (f : Fld) (l : Nat) : W32 :=
  if f.toNat < 384 then x.vget f.toNat l
  else if f.toNat < 480 then (x.sget (f.toNat - 384)).setWidth 32
  else match ty with
    | .fp => nth 0 constF32 (f.toNat - 480)
    | .int => BitVec.ofInt 32 (nth 0 constInt (f.toNat - 480))
/-- SRCS: a scalar source field (R206). -/
def Pack.srcs (x : Pack) (f : Fld) : W64 :=
  if f.toNat < 480 then x.sget (f.toNat - 384) else BitVec.ofInt 64 (nth 0 constInt (f.toNat - 480))
/-- Whether a vector source field names a register tagged B; scalars and constants count as E (R179, R191). -/
def Pack.srcB (x : Pack) (f : Fld) : Bool := decide (f.toNat < 384) && x.tagB f.toNat

/-- Element `e` of width `w` of a lane value: ELEM of R239. -/
def elem (x : W32) (w e : Nat) : Nat := x.toNat / 2 ^ (w * e) % 2 ^ w
/-- SETELEM of R239. -/
def setElem (x : W32) (w e v : Nat) : W32 := putBits x (w * e) w v

/-- TVAL of R207: the low w bits of a value, signed for I types. -/
def tval (ty : IntTy) (x : Nat) : Int :=
  let u := x % 2 ^ ty.width
  if ty.signed && decide (2 ^ (ty.width - 1) ≤ u) then (u : Int) - (2 ^ ty.width : Nat) else (u : Int)
/-- EXTEND of R207. -/
def extend (ty : IntTy) (x : Int) : W64 :=
  BitVec.ofInt 64 (tval ty (x % ((2 ^ ty.width : Nat) : Int)).toNat)
/-- The least value of a TYPE: RANGE of R239. -/
def intLo (ty : IntTy) : Int := if ty.signed then -((2 ^ (ty.width - 1) : Nat) : Int) else 0
/-- The greatest value of a TYPE. -/
def intHi (ty : IntTy) : Int := if ty.signed then ((2 ^ (ty.width - 1) : Nat) : Int) - 1 else ((2 ^ ty.width : Nat) : Int) - 1
/-- Saturation to a TYPE's range where SAT is set (R224, R240). -/
def satTo (ty : IntTy) (sat : Bool) (x : Int) : Int := if sat then min (max x (intLo ty)) (intHi ty) else x

/-- PV of R207 at lane `l`: bit 3 of the code negates. -/
def Pack.pv (x : Pack) (code l : Nat) : Bool := (x.pget (code % 8)).getLsbD l != decide (8 ≤ code)
/-- The lanes at which PV holds. -/
def Pack.pvMask (x : Pack) (code : Nat) : Lanes := if 8 ≤ code then ~~~ (x.pget (code % 8)) else x.pget (code % 8)
/-- A predicate source with its MOD negation bit placed in bit 3 (R229). -/
def pcodeOf (n : Bool) (f : Fld) : Nat := f.toNat % 8 + (if n then 8 else 0)

/-- EA of R206 at lane `l`, modulo 2^64; at or above 2^57 no translation exists. -/
def Pack.ea (x : Pack) (m : MAddr) (l : Nat) : Nat :=
  let b : W64 := if m.base = 127 then 0 else x.sget m.base.toNat
  let i : W64 := if m.index = 511 then 0 else (x.vget m.index.toNat l).signExtend 64
  (b + i + m.off.signExtend 64).toNat
/-- Whether an index vector is tagged B (R180). -/
def Pack.indexB (x : Pack) (m : MAddr) : Bool := m.index != 511 && x.tagB m.index.toNat

/-- The draw index base g·8 of a lane (R55). -/
def State.drawIx (s : State) (x : Pack) (l : Nat) : Nat := 8 * s.gIndex x l
/-- DRAW of R54. -/
def draw (seed : W64) (i stream : Nat) : Nat :=
  let x := seed ^^^ (BitVec.ofNat 64 i * 0x9E3779B97F4A7C15#64) ^^^ (BitVec.ofNat 64 stream <<< 48)
  let x := (x ^^^ (x >>> 30)) * 0xBF58476D1CE4E5B9#64
  let x := (x ^^^ (x >>> 27)) * 0x94D049BB133111EB#64
  let x := x ^^^ (x >>> 31)
  x.toNat % 2 ^ 32
/-- The draw of a lane's element `e` (R55). -/
def State.drawAt (s : State) (x : Pack) (l e stream : Nat) : Nat := draw x.seed (s.drawIx x l + e) stream

/-- The members that have an active lane. -/
def State.acting (s : State) (cx : Cx) (g : Guard) : List Nat := cx.packs.filter (fun p => s.active cx g p != 0)

/-- A change applied in each listed member, ascending (R227). -/
def eachPack (s : State) (ps : List Nat) (f : Nat → Pack → Pack) : State := ps.foldl (fun s p => s.modPack p (f p)) s

/-- A scalar instruction, once in each member whose uniform condition holds (R227). -/
def eachScalar (s : State) (cx : Cx) (g : Guard) (f : Nat → Pack → Pack) : State :=
  eachPack s (cx.packs.filter (s.ucond cx g)) f

/-- Lane values written over the lanes of a mask into V`d` (R237). -/
def Pack.writeLanes (x : Pack) (d : Nat) (m : Lanes) (f : Nat → W32) : Pack :=
  x.vsets d ((lanesOf m).map (fun l => (l, f l)))
/-- Lane bits written over the lanes of a mask into P`d` (R229). -/
def Pack.writePred (x : Pack) (d : Nat) (m : Lanes) (f : Nat → Bool) : Pack := x.pset d m (maskWhere f)

end Sys2Proof.Machine
end

