-- ==== Sys2Proof/Machine/Flags.lean ====
section
/-!
DEFINITION. Comparisons (R207, R224, R241, R247, R64), provenance tags (R179, R180, R238) and flag holds (R189).
-/
namespace Sys2Proof.Machine
open Sys2Proof

/-- `a rel b` of SCMP and VCMP (R224, R241). -/
def relHolds (r : Rel) (a b : Int) : Bool :=
  match r with
  | .eq => a == b | .ne => a != b | .lt => decide (a < b) | .le => decide (a ≤ b) | .gt => decide (b < a) | .ge => decide (b ≤ a)
/-- The IEEE 754 comparison of FCMP and hard QCMP; unordered makes only NE true (R64, R247). -/
def qrelHolds (r : QRel) (a b : FVal) : Bool :=
  match fCmp a b with
  | none => r == .ne
  | some o => (match r with
    | .gt => o == .gt | .ge => o != .lt | .eq => o == .eq | .ne => o != .eq | .lt => o == .lt | .le => o != .gt)
/-- The condition of BRC on a scalar (R197). -/
def brcHolds (c : BrcCond) (v : Int) : Bool :=
  match c with
  | .eqz => v == 0 | .nez => v != 0 | .ltz => decide (v < 0) | .gez => decide (0 ≤ v) | .gtz => decide (0 < v)
  | .lez => decide (v ≤ 0) | .al => true

/-- The tag of a destination after a write of the lanes of `m` (R179): B from any B source; E when every source is E
and every present lane is written; else kept. -/
def Pack.settleTag (x : Pack) (d : Nat) (m : Lanes) (anyB : Bool) : Pack :=
  if anyB then x.tag d true else if x.present &&& m = x.present then x.tag d false else x
/-- Tags of a destination range settled. -/
def Pack.settleTags (x : Pack) (d n : Nat) (m : Lanes) (anyB : Bool) : Pack :=
  (List.range n).foldl (fun x i => x.settleTag (d + i) m anyB) x

/-- BNDUSE for the first B-tagged of the listed fields, in each member that has an active lane (R180, R371). -/
def bndUse (s : State) (ps : List Nat) (fs : List Fld) : M Unit :=
  raiseIn cBNDUSE (ps.filterMap (fun p =>
    (fs.find? (fun f => (s.pack p).srcB f)).map (fun f => (p, f.setWidth 64))))

/-- A vector instruction that writes V`d` lane by lane: BNDUSE of the checked fields, values computed from the state
before, written over the execute mask, tag settled from the sources (R206, R237 to R239). -/
def vecOp (g : Guard) (d : Fld) (srcs : List Fld) (cx : Cx) (s : State) (f : Pack → Nat → W32) : M State :=
  .ok (eachPack s (s.acting cx g) (fun p x =>
    let m := s.active cx g p
    (x.writeLanes d.toNat m (f x)).settleTag d.toNat m (srcs.any x.srcB)))

/-- An instruction that writes P`d` lane by lane (R229, R241, R247). -/
def predOp (g : Guard) (d : Fld) (cx : Cx) (s : State) (f : Pack → Nat → Bool) : M State :=
  .ok (eachPack s (s.acting cx g) (fun p x => x.writePred d.toNat (s.active cx g p) (f x)))

/-- An instruction that writes Q`d` lane by lane (R230 to R236). -/
def qOp (g : Guard) (d : Fld) (cx : Cx) (s : State) (f : Pack → Nat → BitVec 24) : M State :=
  .ok (eachPack s (s.acting cx g) (fun p x =>
    (lanesOf (s.active cx g p)).foldl (fun y l => y.qset d.toNat l (f x l)) x))

/-- A scalar instruction that writes S`d` (R224). -/
def scalarOp (g : Guard) (d : Fld) (cx : Cx) (s : State) (f : Pack → W64) : M State :=
  .ok (eachScalar s cx g (fun _ x => x.sset (d.toNat - 384) (f x)))

/-- A class counter wait: the instruction waits in place while a counter is at 63, its pack blocked, or a flag has 63 holds (R114,
R189). -/
def awaitCount (s : State) (cx : Cx) (ps : List Nat) (k : KCls) : M Unit := do
  waitIf (ps.any (fun p => decide (63 ≤ nth 0 (s.pack p).k k.ix))) s .full
  waitIf (ps.any (fun p => !canCount s cx p k)) s .interlock

end Sys2Proof.Machine
end

