-- ==== Sys2Proof/Machine/Control.lean ====
section
/-!
DEFINITION. Branches, calls, returns, EXIT and pack control (R207 to R223), RFT (R309) and the privileged instructions
(R380 to R385).
-/
namespace Sys2Proof.Machine
open Sys2Proof

/-! ### Moving a path -/

/-- The slot's path moved to `pc` as an issued instruction (R34, R185). -/
def Pack.goto (x : Pack) (k pc : Nat) : Pack :=
  x.modSlot k (fun sl => { sl with path := sl.path.map (fun q => { q with pc }), clause := none,
                                   issued := sl.issued + 1, last := some (x.stamp + 1), stall := none, seen := x.stamp + 1 })
/-- A target measured from F in 8-byte units (R196). -/
def Cx.target {w : Nat} (cx : Cx) (off : BitVec w) : Int := (cx.fall : Int) + 8 * off.toInt
/-- An offset as TRAPA and PINFO hold it (R371). -/
def offInfo (x : Int) : W64 := BitVec.ofInt 64 x
/-- The members continue ganged only while their lead paths agree, no heel slot holds a path, and no kennel a path entry, above or below
a frame (R24, R25). -/
def stillGanged (s : State) (ps : List Nat) : Bool :=
  match ps with
  | [] => true
  | p :: _ =>
    let a := (s.pack p).lead.path
    ps.all (fun q =>
      let x := s.pack q
      x.lead.path.isSome && x.heel.path.isNone && !anyPath x.kennel &&
      x.lead.path.map (fun r => (r.pc, r.rpc)) == a.map (fun r => (r.pc, r.rpc)))
/-- A ganged team that no longer meets R24 splits (R25). -/
def settleGang (cx : Cx) (s : State) : State :=
  let ps := cx.packs.filter (fun p => !(s.pack p).retired)
  if (s.launchOf (cx.packs.headD 0)).teamW ≠ 16 ∧ stillGanged s ps = false
  then eachPack s ps (fun _ x => { x with gang := false }) else s

/-! ### Branches -/

/-- An integer into an ascending list without repeats. -/
def insertInt (t : Int) : List Int → List Int
  | [] => [t]
  | u :: us => if t < u then t :: u :: us else if t = u then u :: us else u :: insertInt t us
/-- The list of (target, lanes) pairs of one member: ascending, merged, none empty (R208). -/
def pairsOf (m act : Lanes) (fall : Int) (sel : Nat → Option Int) : List (Int × Lanes) :=
  let tgt := fun l => if act.getLsbD l then (sel l).getD fall else fall
  let ts := (lanesOf m).foldl (fun ts l => insertInt (tgt l) ts) []
  ts.map (fun t => (t, maskOf ((lanesOf m).filter (fun l => tgt l == t))))
/-- SPLITPATH in every member, or KENNELFULL in those whose pushes find no entry (R15, R22, R25). -/
def splitAll (s : State) (k rn fall : Nat) : List (Nat × List (Int × Lanes)) → State × List (Nat × W64)
  | [] => (s, [])
  | (p, l) :: rest =>
    let q := s.path p k
    let n := (s.pack p).splitPushes k rn q.rpc l.length
    let (t, bad) := if s.canPush p n then
        (s.modPack p (fun x =>
          let x := x.goto k fall
          x.split k rn q.rpc q.mask (l.map (fun e => (e.1.toNat, e.2)))), [])
      else (s, [(p, 0)])
    let (t', bad') := splitAll t k rn fall rest
    (t', bad ++ bad')
/-- BRA, BR4 and SWITCH: the pairs, the checks of R208 in order over the targets of the whole team, each raised in every member
(DEDUCED, log 11), and the split. A branch that yields two or more pairs in a member ends that member's open region (R404). -/
def branch (g : Guard) (rcv : BitVec 15) (sel : Pack → Nat → Option Int) (cx : Cx) (s : State) : M State := do
  let lists := cx.packs.map (fun p => (p, pairsOf (s.path p cx.slot).mask (s.active cx g p) cx.fall (sel (s.pack p))))
  let ts := lists.foldl (fun ts l => l.2.foldl (fun ts e => insertInt e.1 ts) ts) []
  let _ ← match ts.find? (fun t => !within t) with
    | some t => raise cILLTGT (offInfo t)
    | none => .ok ()
  let rn := cx.target rcv
  let s ← if 2 ≤ ts.length then do
      failIf (!within rn) cILLTGT (offInfo rn)
      let w ← fetchCode s (cx.packs.headD 0) cx.slot rn.toNat
      failIf (!isHeader w) cILLTGT (offInfo rn)
      endRegions s cx.slot ((lists.filter (fun l => decide (2 ≤ l.2.length))).map (·.1))
    else .ok s
  let (t, bad) := splitAll s cx.slot rn.toNat cx.fall lists
  raiseIn cKENNELFULL bad
  return settleGang cx t

/-- BRA (R209). -/
def execBra (g : Guard) (cnd : BitVec 4) (tgt : BitVec 24) (rcv : BitVec 15) (s : State) : Host.Outcome State Fault Refusal :=
  issue (.bra g cnd tgt rcv) s (fun cx => branch g rcv (fun x l => if x.pv cnd.toNat l then some (cx.target tgt) else none) cx)

/-- BR4: the lowest-numbered pair whose predicate is true (R211). -/
def execBr4 (g : Guard) (kind : BitVec 2) (p0 : BitVec 4) (t0 : BitVec 24) (rcv : BitVec 15) (p1 : BitVec 4) (t1 : BitVec 16)
    (p2 : BitVec 4) (t2 : BitVec 16) (p3 : BitVec 4) (t3 : BitVec 16) (s : State) : Host.Outcome State Fault Refusal :=
  issue (.br4 g kind p0 t0 rcv p1 t1 p2 t2 p3 t3) s (fun cx => branch g rcv (fun x l =>
    if x.pv p0.toNat l then some (cx.target t0)
    else if 1 ≤ kind.toNat ∧ x.pv p1.toNat l then some (cx.target t1)
    else if 2 ≤ kind.toNat ∧ x.pv p2.toNat l then some (cx.target t2)
    else if 3 ≤ kind.toNat ∧ x.pv p3.toNat l then some (cx.target t3)
    else none) cx)

/-- SWITCH: case v - KB of an unsigned lane value (R212). -/
def execSwitch (g : Guard) (val : Fld) (ncase : BitVec 3) (kb : BitVec 16) (rcv : BitVec 15) (toff : BitVec 64) (s : State) :
    Host.Outcome State Fault Refusal :=
  issue (.switch g val ncase kb rcv toff) s (fun cx => branch g rcv (fun x l =>
    let v := (x.vget val.toNat l).toNat
    if kb.toNat ≤ v ∧ v ≤ kb.toNat + ncase.toNat
    then some ((cx.fall : Int) + 8 * (bitsAt toff (8 * (v - kb.toNat)) 8 : Nat)) else none) cx)

/-- BRC: the whole path of each member moves or falls through (R210). -/
def execBrc (g : Guard) (cond : BrcCond) (cnd : BitVec 7) (tgt : BitVec 24) (s : State) : Host.Outcome State Fault Refusal :=
  issue (.brc g cond cnd tgt) s (fun cx s => do
    let taken := fun p => s.ucond cx g p && brcHolds cond ((s.pack p).sget cnd.toNat).toInt
    let t := cx.target tgt
    raiseIn cILLTGT (if within t then [] else (cx.packs.filter taken).map (fun p => (p, offInfo t)))
    return settleGang cx (eachPack s cx.packs (fun p x => x.goto cx.slot (if taken p then t.toNat else cx.fall))))

/-! ### Calls, returns and exit -/

/-- CALL in every member whose condition holds: checks, then a join entry and the callee's path (R213). -/
def callTo (g : Guard) (tgt : Pack → Int) (cx : Cx) (s : State) : M State := do
  let ps := cx.packs.filter (s.ucond cx g)
  let badTgt := ps.filter (fun p => let t := tgt (s.pack p); !within t || decide (t % 8 ≠ 0))
  raiseIn cILLTGT (badTgt.map (fun p => (p, offInfo (tgt (s.pack p)))))
  let s ← endRegions s cx.slot ps
  let one := fun (r : State × List (Nat × W64)) p =>
    if !(ps.contains p) then (r.1.modPack p (fun x => x.goto cx.slot cx.fall), r.2)
    else if r.1.canPush p 1 then
      (r.1.modPack p (fun x =>
        let q := (x.slot cx.slot).path.getD ⟨0, 0, none⟩
        let x := x.pushJoin ⟨cx.fall, q.mask, q.rpc⟩
        (x.goto cx.slot (tgt x).toNat).modSlot cx.slot (fun sl =>
          { sl with path := sl.path.map (fun q => { q with rpc := some cx.fall }) })), r.2)
    else (r.1, r.2 ++ [(p, 0)])
  let (t, bad) := cx.packs.foldl one (s, [])
  raiseIn cKENNELFULL bad
  return settleGang cx t

/-- CALL, relative (R213). -/
def execCall (g : Guard) (tgt : BitVec 24) (s : State) : Host.Outcome State Fault Refusal :=
  issue (.call g tgt) s (fun cx => callTo g (fun _ => cx.target tgt) cx)
/-- CALL.REG: the code base plus S[CND] (R197, R213). -/
def execCallReg (g : Guard) (sc : BitVec 7) (s : State) : Host.Outcome State Fault Refusal :=
  issue (.callReg g sc) s (callTo g (fun x => (x.sget sc.toNat).toInt))

/-- RET (R21, R214). -/
def execRet (g : Guard) (s : State) : Host.Outcome State Fault Refusal :=
  issue (.ret g) s (fun cx s => do
    let ps := cx.packs.filter (s.ucond cx g)
    raiseIn cILLTGT (ps.filterMap (fun p => match (s.path p cx.slot).rpc with
      | none => some (p, cx.at)
      | some t => if within t then none else some (p, offInfo t)))
    let s ← endRegions s cx.slot ps
    return settleGang cx (eachPack s cx.packs (fun p x =>
      x.goto cx.slot (if ps.contains p then (s.path p cx.slot).rpc.getD 0 else cx.fall))))

/-- A result that is reached whole or not at all: where it waits, nothing but the waiting itself has changed `s` (R376, R402). -/
def wholly (s : State) (r : M State) : M State :=
  match r with
  | .error (.stall t w) => .error (.stall { s with tlbs := t.tlbs, merges := t.merges, mshr := t.mshr, sent := t.sent, parts := t.parts } w)
  | r => r
/-- A handler whose last path has ended goes on as RFT would, as often as frames are left without paths (R376). -/
def handlerEnd (s : State) (p k : Nat) (at' : W64) : Nat → M State
  | 0 => .ok s
  | n + 1 =>
    let x := s.pack p
    if x.lead.path.isNone && x.heel.path.isNone && !hasPath x.kennel && (topFrame x.kennel).isSome then do
      let t ← popFrame s p k at'
      handlerEnd t p k at' n
    else .ok s
/-- A pack without paths retires; its unresolved guard slots resolve false (R12, R154, R215, R364). -/
def retirePack (s : State) (p : Nat) : State :=
  let x := s.pack p
  if x.lead.path.isNone && x.heel.path.isNone && !hasPath x.kennel && (topFrame x.kennel).isNone then
    settle (lastArrival (s.modPack p (fun x => { x.stopAll with kennel := [] })) p)
  else s
/-- A cause that waits for the next header of the path of lanes `m` after the lanes `gone` have left it: where all its lanes are gone, the
path's other lanes take it (R143, R407). -/
def Pending.stay (m gone : Lanes) (e : Pending) : Pending :=
  if e.lanes &&& m ≠ 0 ∧ e.lanes &&& ~~~ gone = 0 then { e with lanes := m &&& ~~~ gone } else e
/-- EXIT in one member: the lanes leave, the rest continues at F (R19, R33, R215). -/
def exitIn (g : Guard) (cx : Cx) (s : State) (p : Nat) : M State := do
  let q := s.path p cx.slot
  let m := s.active cx g p
  let ends := m != 0 || (q.mask == 0 && s.ucond cx g p)
  if !ends then return s.modPack p (fun x => x.goto cx.slot cx.fall)
  else
    let rest := q.mask &&& ~~~ m
    let s := s.modPack p (fun x =>
      let k0 := x.kennel
      let x := { x with kennel := dropLanes m x.kennel, pending := x.pending.map (Pending.stay q.mask m) }
      let x := if rest = 0 then x.modSlot cx.slot (fun sl => { sl with last := some (x.stamp + 1) }.emptied)
        else (x.goto cx.slot cx.fall).modSlot cx.slot (fun sl => { sl with path := sl.path.map (fun q => { q with mask := rest }) })
      x.refillFrom k0)
    handlerEnd s p cx.slot cx.at 64
/-- EXIT: the wait of REL for what the region does not hold, the end of the region, then the wait for the stores that this lets go (R121,
R215; log 10). -/
def execExit (g : Guard) (s : State) : Host.Outcome State Fault Refusal :=
  issue (.exit g) s (fun cx s => do
    let acts := cx.packs.filter (fun p => s.active cx g p != 0 || ((s.path p cx.slot).mask == 0 && s.ucond cx g p))
    waitIf (acts.any (exitBusy s)) s .rel
    let s ← endRegions s cx.slot acts
    waitIf (acts.any (relBusy s)) s .rel
    let t ← wholly s (cx.packs.foldlM (exitIn g cx) s)
    return settleGang cx (acts.foldl retirePack t))

/-- NOP (R216). -/
def execNop (g : Guard) (s : State) : Host.Outcome State Fault Refusal :=
  issue (.nop g) s (fun _ s => .ok s)

/-! ### Pack control -/

/-- The first path entry equal to one, taken out. -/
def dropPath (t : Nat) (q : Path) : List KItem → List KItem
  | [] => []
  | i :: k => if i = KItem.path t q then k else i :: dropPath t q k
/-- The kennel rotates in slot `k`: the slot's path to the bottom with a fresh STAMP, the oldest path entry into the slot
with its count at zero (R34); when the slot last issued stays its own (R33). -/
def Pack.rotate (x : Pack) (k : Nat) : Pack :=
  let (above, rest) := splitFrame x.kennel
  match oldestPath (x.stamp % 2 ^ 20) above, (x.slot k).path with
  | some (t, q), some mine =>
    ({ x with kennel := dropPath t q above ++ [KItem.path (x.stamp % 2 ^ 20) mine] ++ rest }).modSlot k
      (fun sl => sl.take q x.stamp)
  | _, _ => x

/-- YIELD: the clause ends, the pack stands back from the next free port, a path entry takes the slot, and a forced pack is forced no
more (R217, R355). -/
def execYield (g : Guard) (s : State) : Host.Outcome State Fault Refusal :=
  issue (.yield g) s (fun cx s => do
    let ps := cx.packs.filter (s.ucond cx g)
    let s ← endRegions s cx.slot (ps.filter (fun p => hasPath (s.pack p).kennel))
    return settleGang cx (eachPack s cx.packs (fun p x =>
      let x := x.goto cx.slot cx.fall
      if ps.contains p then
        let x := { x with yielded := true, uncounted := x.forced }
        if hasPath x.kennel then x.rotate cx.slot else x
      else x)))

/-- SLPT: blocked until CLK reaches the scalar (R218). -/
def execSlpt (g : Guard) (a : Fld) (s : State) : Host.Outcome State Fault Refusal :=
  issue (.slpt g a) s (fun cx s => do
    waitIf (cx.packs.any (fun p => s.ucond cx g p && decide (s.clk < (s.pack p).srcs a))) s .slpt
    return s)

/-- WAITK: blocked until the counter is at most n (R219). -/
def execWaitk (g : Guard) (k : KCls) (n : BitVec 6) (s : State) : Host.Outcome State Fault Refusal :=
  issue (.waitk g k n) s (fun cx s => do
    waitIf (cx.packs.any (fun p => s.ucond cx g p && decide (n.toNat < nth 0 (s.pack p).k k.ix))) s .waitk
    return s)

/-- TRAP: the software user trap, saving F (R220); members whose condition is false continue at F. -/
def execTrap (g : Guard) (imm : BitVec 32) (s : State) : Host.Outcome State Fault Refusal :=
  issue (.trap g imm) s (fun cx s =>
    let ps := cx.packs.filter (s.ucond cx g)
    if ps.isEmpty then .ok (eachPack s cx.packs (fun _ x => x.goto cx.slot cx.fall))
    else .error (.exc { cause := cTRAP, info := imm.setWidth 64, who := ps.map (fun p => (p, imm.setWidth 64)), resume := some cx.fall }))

/-- UPV of R207: a predicate code read uniformly. -/
def State.upv (s : State) (cx : Cx) (code p : Nat) : Bool := (s.pack p).pv code (lowLane (s.path p cx.slot).mask)

/-- GSET (R221). -/
def execGset (g : Guard) (neg : Bool) (u : Bool) (d : Fld) (a : Fld) (s : State) : Host.Outcome State Fault Refusal :=
  issue (.gset g neg u d a) s (fun cx s =>
    .ok (eachScalar s cx g (fun p x =>
      { x with gs := x.gs.set d.toNat (if u then none else some (s.upv cx (pcodeOf neg a) p)) })))

/-- REGION (R222, R404). -/
def execRegion (g : Guard) (s : State) : Host.Outcome State Fault Refusal :=
  issue (.region g) s (fun cx s => do
    let ps := cx.packs.filter (s.ucond cx g)
    failIf (!ps.isEmpty && cx.pc != cx.cl.hdr + 8) cILLOP cx.at
    if (s.launchOf (cx.packs.headD 0)).regions then
      raiseIn cILLOP ((ps.filter (fun p => ((s.pack p).slot (1 - cx.slot)).path.isSome || anyPath (s.pack p).kennel)).map (fun p => (p, cx.at)))
      let t ← endRegions s cx.slot ps
      let opened := fun (p : Nat) (x : Pack) => (⟨cx.cl.hdr, (t.path p cx.slot).mask, (t.path p cx.slot).rpc, kUnits x.kennel, x.lclk, [], false, []⟩ : Region)
      return eachPack t ps (fun p x => { x with region := some (opened p x) })
    else return s)

/-- Whether a synchronising operation of a `.det` launch has not been performed (R223). -/
def Op.unsynced (o : Op) : Bool :=
  !o.done && (match o.body with
    | .atom _ _ _ _ => true | .adds _ _ _ _ => true | .hins _ _ _ => true | .post _ => true
    | .job j => j.stage == .held && !j.discarded | _ => false)
/-- DSYNC (R223). -/
def execDsync (g : Guard) (s : State) : Host.Outcome State Fault Refusal :=
  issue (.dsync g) s (fun cx s => do
    let ps := cx.packs.filter (s.ucond cx g)
    let s ← endRegions s cx.slot ps
    let p := cx.packs.headD 0
    if ps.isEmpty then return s
    else if (s.launchOf p).det then
      awaitTurn s p
      waitIf (ps.any (relBusy s) || s.ops.any (fun o => o.launch == (s.pack p).launch && o.unsynced)) s .rel
      return s
    else
      waitIf (ps.any (relBusy s)) s .rel
      return s)

/-- RFT (R309, R376). -/
def execRft (g : Guard) (s : State) : Host.Outcome State Fault Refusal :=
  issue (.rft g) s (fun cx s => do
    let ps := cx.packs.filter (s.ucond cx g)
    raiseIn cILLOP ((ps.filter (fun p => !(s.pack p).inUserHandler)).map (fun p => (p, cx.at)))
    let t ← wholly s (ps.foldlM (fun t p => popFrame t p cx.slot cx.at)
      (eachPack s (cx.packs.filter (fun p => !ps.contains p)) (fun _ x => x.goto cx.slot cx.fall)))
    return settleGang cx (ps.foldl retirePack t))

/-! ### The privileged handler -/

/-- PRFT (R385). -/
def execPrft (g : Guard) (s : State) : Host.Outcome State Fault Refusal :=
  issue (.prft g) s (fun cx s => do
    let ps := cx.packs.filter (s.ucond cx g)
    let t ← wholly s (ps.foldlM (fun t p => popFrame t p cx.slot cx.at)
      (eachPack s (cx.packs.filter (fun p => !ps.contains p)) (fun _ x => x.goto cx.slot cx.fall)))
    return settleGang cx (ps.foldl retirePack t))

/-- HALT (R383). -/
def execHalt (g : Guard) (s : State) : Host.Outcome State Fault Refusal :=
  issue (.halt g) s (fun cx s =>
    let ps := cx.packs.filter (s.ucond cx g)
    let s := eachPack s cx.packs (fun _ x => x.goto cx.slot cx.fall)
    .ok (settleEnded (ps.foldl (fun s p => endLaunch s p false none) s)))

/-- SNAP (R384). -/
def execSnap (g : Guard) (s : State) : Host.Outcome State Fault Refusal :=
  issue (.snap g) s (fun cx s => .ok ((cx.packs.filter (s.ucond cx g)).foldl (fun s _ => snapTrigger s 1) s))

/-- PMODE (R381). -/
def Pack.pmode (x : Pack) : W64 := BitVec.ofNat 64 ((if x.hasUserFrame then 1 else 0) + (if x.priv then 2 else 0))
/-- A privileged register (R381). -/
def State.privReg (s : State) (p n : Nat) : W64 :=
  let x := s.pack p
  let l := s.launch x.launch
  let q := s.part l.part
  if n = 0 then x.pcause
  else if n = 1 then x.pinfo
  else if n = 2 then x.pmode
  else if n < 7 then nth 0 x.pscr (n - 3)
  else if n < 14 then ((privFrame x.kennel).getD 0).extractLsb' (64 * (n - 8)) 64
  else if n = 16 then q.ptrapv.setWidth 64
  else if n = 17 then q.phbase
  else if n = 18 then BitVec.ofNat 64 (l.pasid % 2 ^ 20)
  else if n = 19 then BitVec.ofNat 64 l.addr
  else BitVec.ofNat 64 (s.lpack p)
/-- PSRD (R382). -/
def execPsrd (g : Guard) (d : Fld) (num : BitVec 8) (s : State) : Host.Outcome State Fault Refusal :=
  issue (.psrd g d num) s (fun cx s =>
    .ok (eachScalar s cx g (fun p x => x.sset (d.toNat - 384) (s.privReg p num.toNat))))

/-- A doubleword of a frame written, but for MARK, PRIV, CAUSE and the reserved bits of the header and of both slot records, which
keep their values (R5, R20, R373, R382). -/
def writeFrame (f : BitVec 384) (i : Nat) (v : W64) : BitVec 384 :=
  let slotKeep : BitVec 384 := ((0xFF00000000000000#64).setWidth 384 <<< 64) ||| (0x0000003FE0000000#64).setWidth 384
  let keep : BitVec 384 := ((0xFFBFFF0000000000#64).setWidth 384 <<< 320) ||| ((0x00003FFFFFFF0000#64).setWidth 384 <<< 256) |||
    slotKeep ||| (slotKeep <<< 128)
  let new := putBits f (64 * i) 64 v.toNat
  (f &&& keep) ||| (new &&& ~~~ keep)
/-- A privileged register written (R381, R382). -/
def Pack.setPriv (x : Pack) (n : Nat) (v : W64) : Pack :=
  if n = 0 then { x with pcause := v }
  else if n = 1 then { x with pinfo := v }
  else if n < 7 then { x with pscr := x.pscr.set (n - 3) v }
  else { x with kennel := modPrivFrame (fun f => writeFrame f (n - 8) v) x.kennel, rewritten := true }
/-- PSWR (R382). -/
def execPswr (g : Guard) (num : BitVec 8) (a : Fld) (s : State) : Host.Outcome State Fault Refusal :=
  issue (.pswr g num a) s (fun cx s => .ok (eachScalar s cx g (fun _ x => x.setPriv num.toNat (x.srcs a))))

/-! ### Special registers -/

/-- TIDX of a lane (R8, R9). -/
def State.tidx (s : State) (x : Pack) (l : Nat) : W32 :=
  let r := s.launch x.launch
  let t := 16 * x.pk + l
  if r.threads ≤ t then 0xFFFFFFFF
  else BitVec.ofNat 32 (t / (r.bx * r.bY) * 2 ^ 24 + t / r.bx % r.bY * 2 ^ 12 + t % r.bx)
/-- MRL as SRD reads it (R307). -/
def Pack.mrl (x : Pack) : W64 :=
  match x.sect with
  | none => 0
  | some m => BitVec.ofNat 64 (m.label % 2 ^ 32 / 8 * 8 + 1 + m.mask.toNat * 2 ^ 32 + m.depth % 2 ^ 16 * 2 ^ 48)
/-- A scalar special register (R9, R307). -/
def State.sreg (s : State) (p n : Nat) : W64 :=
  let x := s.pack p
  let r := s.launch x.launch
  let b := (s.block x.block).b
  if n = 0 then s.clk
  else if n = 1 then x.lclk
  else if n = 2 then x.beta.setWidth 64
  else if n = 3 then x.seed
  else if n = 4 then x.trapv
  else if n = 5 then x.trapc
  else if n = 6 then x.trapa
  else if n = 7 then x.mrl
  else if n = 8 then x.xbnd
  else if n = 10 then BitVec.ofNat 64 (b / (r.gx * r.gy) * 2 ^ 48 + b / r.gx % r.gy * 2 ^ 32 + b % r.gx)
  else if n = 11 then BitVec.ofNat 64 (r.teamW * 2 ^ 48 + r.bZ * 2 ^ 32 + r.bY * 2 ^ 16 + r.bx)
  else if n = 12 then BitVec.ofNat 64 (r.gz * 2 ^ 48 + r.gy * 2 ^ 32 + r.gx)
  else if n = 13 then BitVec.ofNat 64 (x.pk % 2 ^ 12)
  else if n = 15 then (if r.det then 1 else 0)
  else 0
/-- SRD (R308). -/
def execSrd (g : Guard) (d : Fld) (num : BitVec 8) (s : State) : Host.Outcome State Fault Refusal :=
  issue (.srd g d num) s (fun cx s =>
    if num = 9 then vecOp g d [] cx s (fun x l => s.tidx x l)
    else if num = 14 then vecOp g d [] cx s (fun _ l => BitVec.ofNat 32 l)
    else .ok (eachScalar s cx g (fun p x => x.sset (d.toNat - 384) (s.sreg p num.toNat))))

/-- BETA as a write leaves it (R62). -/
def betaOf (v : W32) : W32 :=
  if v.getLsbD 31 ∨ 0x7F800000 < v.toNat then 0 else v
/-- A user special register written (R307, R308). -/
def Pack.setUser (x : Pack) (n : Nat) (v : W64) : Pack :=
  if n = 2 then { x with beta := betaOf (v.setWidth 32) }
  else if n = 3 then { x with seed := v }
  else if n = 4 then { x with trapv := v }
  else if n = 5 then { x with trapc := v }
  else { x with trapa := v }
/-- SWR (R308). -/
def execSwr (g : Guard) (num : BitVec 8) (a : Fld) (s : State) : Host.Outcome State Fault Refusal :=
  issue (.swr g num a) s (fun cx s => .ok (eachScalar s cx g (fun _ x => x.setUser num.toNat (x.srcs a))))

end Sys2Proof.Machine
end

