-- ==== Sys2Proof/Machine/Scalar.lean ====
section
/-!
DEFINITION. The scalar ALU (R224 to R227), boolean predicates (R229) and probability predicates (R60 to R67, R230 to
R236).
-/
namespace Sys2Proof.Machine
open Sys2Proof

/-! ### Scalar arithmetic -/

/-- TVAL of a scalar source. -/
def Pack.sval (x : Pack) (ty : IntTy) (f : Fld) : Int := tval ty (x.srcs f).toNat
/-- The low w bits of a scalar source, unsigned. -/
def Pack.sbits (x : Pack) (ty : IntTy) (f : Fld) : Nat := (x.srcs f).toNat % 2 ^ ty.width
/-- A scalar ALU instruction: x exact, clamped with SAT, written by EXTEND (R224). -/
def salu (g : Guard) (ty : IntTy) (sat : Bool) (d : Fld) (f : Pack → Int) (cx : Cx) (s : State) : M State :=
  scalarOp g d cx s (fun x => extend ty (satTo ty sat (f x)))

/-- The number of set bits. -/
def popCount (w u : Nat) : Nat := ((List.range w).filter (fun i => u.testBit i)).length
/-- Leading zeros of a `w`-bit value; `w` for 0. -/
def leadZeros (w u : Nat) : Nat := if u = 0 then w else w - 1 - Nat.log2 u
/-- The signed value of a `w`-bit pattern. -/
def signedOf (w u : Nat) : Int := if 2 ^ (w - 1) ≤ u then (u : Int) - (2 ^ w : Nat) else u
/-- a·2^n, 0 for counts of w or more (R224, R240). -/
def shlVal (w : Nat) (a : Int) (n : Nat) : Int := if w ≤ n then 0 else a * (2 ^ n : Nat)
/-- ⌊u/2^n⌋, 0 for counts of w or more. -/
def shrVal (w u n : Nat) : Int := if w ≤ n then 0 else (u / 2 ^ n : Nat)
/-- The arithmetic shift, the sign fill for counts of w or more. -/
def sarVal (w u n : Nat) : Int := signedOf w u / (2 ^ (min n w) : Nat)

/-- SADD (R224). -/
def execSadd (g : Guard) (ty : IntTy) (sat : Bool) (d a b : Fld) (s : State) : Host.Outcome State Fault Refusal :=
  issue (.sadd g ty sat d a b) s (salu g ty sat d (fun x => x.sval ty a + x.sval ty b))
/-- SSUB (R224). -/
def execSsub (g : Guard) (ty : IntTy) (sat : Bool) (d a b : Fld) (s : State) : Host.Outcome State Fault Refusal :=
  issue (.ssub g ty sat d a b) s (salu g ty sat d (fun x => x.sval ty a - x.sval ty b))
/-- SMUL (R224). -/
def execSmul (g : Guard) (ty : IntTy) (sat : Bool) (d a b : Fld) (s : State) : Host.Outcome State Fault Refusal :=
  issue (.smul g ty sat d a b) s (salu g ty sat d (fun x => x.sval ty a * x.sval ty b))
/-- SMULH (R224). -/
def execSmulh (g : Guard) (ty : IntTy) (d a b : Fld) (s : State) : Host.Outcome State Fault Refusal :=
  issue (.smulh g ty d a b) s (salu g ty false d (fun x => x.sval ty a * x.sval ty b / (2 ^ ty.width : Nat)))
/-- SMAD (R224). -/
def execSmad (g : Guard) (ty : IntTy) (sat : Bool) (d a b c : Fld) (s : State) : Host.Outcome State Fault Refusal :=
  issue (.smad g ty sat d a b c) s (salu g ty sat d (fun x => x.sval ty a * x.sval ty b + x.sval ty c))
/-- SAND (R224). -/
def execSand (g : Guard) (ty : IntTy) (d a b : Fld) (s : State) : Host.Outcome State Fault Refusal :=
  issue (.sand g ty d a b) s (salu g ty false d (fun x => (x.sbits ty a &&& x.sbits ty b : Nat)))
/-- SOR (R224). -/
def execSor (g : Guard) (ty : IntTy) (d a b : Fld) (s : State) : Host.Outcome State Fault Refusal :=
  issue (.sor g ty d a b) s (salu g ty false d (fun x => (x.sbits ty a ||| x.sbits ty b : Nat)))
/-- SXOR (R224). -/
def execSxor (g : Guard) (ty : IntTy) (d a b : Fld) (s : State) : Host.Outcome State Fault Refusal :=
  issue (.sxor g ty d a b) s (salu g ty false d (fun x => (x.sbits ty a ^^^ x.sbits ty b : Nat)))
/-- SSHL: the count is b read as unsigned 64 bits (R224). -/
def execSshl (g : Guard) (ty : IntTy) (d a b : Fld) (s : State) : Host.Outcome State Fault Refusal :=
  issue (.sshl g ty d a b) s (salu g ty false d (fun x => shlVal ty.width (x.sval ty a) (x.srcs b).toNat))
/-- SSHR (R224). -/
def execSshr (g : Guard) (ty : IntTy) (d a b : Fld) (s : State) : Host.Outcome State Fault Refusal :=
  issue (.sshr g ty d a b) s (salu g ty false d (fun x => shrVal ty.width (x.sbits ty a) (x.srcs b).toNat))
/-- SSAR (R224). -/
def execSsar (g : Guard) (ty : IntTy) (d a b : Fld) (s : State) : Host.Outcome State Fault Refusal :=
  issue (.ssar g ty d a b) s (salu g ty false d (fun x => sarVal ty.width (x.sbits ty a) (x.srcs b).toNat))
/-- SMIN (R224). -/
def execSmin (g : Guard) (ty : IntTy) (d a b : Fld) (s : State) : Host.Outcome State Fault Refusal :=
  issue (.smin g ty d a b) s (salu g ty false d (fun x => min (x.sval ty a) (x.sval ty b)))
/-- SMAX (R224). -/
def execSmax (g : Guard) (ty : IntTy) (d a b : Fld) (s : State) : Host.Outcome State Fault Refusal :=
  issue (.smax g ty d a b) s (salu g ty false d (fun x => max (x.sval ty a) (x.sval ty b)))
/-- SCMP (R224). -/
def execScmp (g : Guard) (ty : IntTy) (rel : Rel) (d a b : Fld) (s : State) : Host.Outcome State Fault Refusal :=
  issue (.scmp g ty rel d a b) s (salu g ty false d (fun x => if relHolds rel (x.sval ty a) (x.sval ty b) then 1 else 0))
/-- SSEL (R224). -/
def execSsel (g : Guard) (ty : IntTy) (d a b c : Fld) (s : State) : Host.Outcome State Fault Refusal :=
  issue (.ssel g ty d a b c) s (salu g ty false d (fun x => if x.sval ty c ≠ 0 then x.sval ty a else x.sval ty b))
/-- SMOV (R224). -/
def execSmov (g : Guard) (ty : IntTy) (d a : Fld) (s : State) : Host.Outcome State Fault Refusal :=
  issue (.smov g ty d a) s (salu g ty false d (fun x => x.sval ty a))
/-- SMOVI: the sign-extended immediate (R225). -/
def execSmovi (g : Guard) (d : Fld) (imm : BitVec 32) (s : State) : Host.Outcome State Fault Refusal :=
  issue (.smovi g d imm) s (scalarOp g d · · (fun _ => imm.signExtend 64))
/-- SMOVH: the immediate above the low word (R225). -/
def execSmovh (g : Guard) (d a : Fld) (imm : BitVec 32) (s : State) : Host.Outcome State Fault Refusal :=
  issue (.smovh g d a imm) s (scalarOp g d · · (fun x => imm ++ (x.srcs a).setWidth 32))
/-- SPOP (R224). -/
def execSpop (g : Guard) (ty : IntTy) (d a : Fld) (s : State) : Host.Outcome State Fault Refusal :=
  issue (.spop g ty d a) s (salu g ty false d (fun x => (popCount ty.width (x.sbits ty a) : Nat)))
/-- SCLZ (R224). -/
def execSclz (g : Guard) (ty : IntTy) (d a : Fld) (s : State) : Host.Outcome State Fault Refusal :=
  issue (.sclz g ty d a) s (salu g ty false d (fun x => (leadZeros ty.width (x.sbits ty a) : Nat)))

/-- A bit field of `len` bits from `pos`, sign- or zero-extended (R226, R244). -/
def bitField (sx : Bool) (a pos len : Nat) : Int :=
  if len = 0 then 0 else
    let u := a / 2 ^ pos % 2 ^ len
    if sx then signedOf len u else u
/-- `c` with the field of `len` bits at `pos` below bit `w` replaced by the low bits of `a` (R226, R244). -/
def bitInsert (w a c pos len : Nat) : Nat :=
  let n := min len (w - pos)
  (c - c / 2 ^ pos % 2 ^ n * 2 ^ pos) + a % 2 ^ n * 2 ^ pos
/-- SBFE (R226). -/
def execSbfe (g : Guard) (ty : IntTy) (d a b : Fld) (s : State) : Host.Outcome State Fault Refusal :=
  issue (.sbfe g ty d a b) s (salu g ty false d (fun x =>
    let b := (x.srcs b).toNat
    bitField ty.signed (x.srcs a).toNat (b % 64) (min (b / 256 % 128) 64)))
/-- SBFI (R226). -/
def execSbfi (g : Guard) (ty : IntTy) (d a b c : Fld) (s : State) : Host.Outcome State Fault Refusal :=
  issue (.sbfi g ty d a b c) s (scalarOp g d · · (fun x =>
    let b := (x.srcs b).toNat
    BitVec.ofNat 64 (bitInsert 64 (x.srcs a).toNat (x.srcs c).toNat (b % 64) (min (b / 256 % 128) 64))))

/-! ### Boolean predicates -/

/-- PSET: bit L of the scalar, L the team lane (R229). -/
def execPset (g : Guard) (d a : Fld) (s : State) : Host.Outcome State Fault Refusal :=
  issue (.pset g d a) s (fun cx s =>
    .ok (eachPack s (s.acting cx g) (fun p x =>
      x.writePred d.toNat (s.active cx g p) (fun l => (x.srcs a).getLsbD (s.teamLane p l)))))
/-- PAND (R229). -/
def execPand (g : Guard) (na nb : Bool) (d a b : Fld) (s : State) : Host.Outcome State Fault Refusal :=
  issue (.pand g na nb d a b) s (predOp g d · · (fun x l => x.pv (pcodeOf na a) l && x.pv (pcodeOf nb b) l))
/-- POR (R229). -/
def execPor (g : Guard) (na nb : Bool) (d a b : Fld) (s : State) : Host.Outcome State Fault Refusal :=
  issue (.por g na nb d a b) s (predOp g d · · (fun x l => x.pv (pcodeOf na a) l || x.pv (pcodeOf nb b) l))
/-- PXOR (R229). -/
def execPxor (g : Guard) (na nb : Bool) (d a b : Fld) (s : State) : Host.Outcome State Fault Refusal :=
  issue (.pxor g na nb d a b) s (predOp g d · · (fun x l => x.pv (pcodeOf na a) l != x.pv (pcodeOf nb b) l))
/-- PNOT (R229). -/
def execPnot (g : Guard) (d a : Fld) (s : State) : Host.Outcome State Fault Refusal :=
  issue (.pnot g d a) s (predOp g d · · (fun x l => !x.pv a.toNat l))
/-- PMOV (R229). -/
def execPmov (g : Guard) (na : Bool) (d a : Fld) (s : State) : Host.Outcome State Fault Refusal :=
  issue (.pmov g na d a) s (predOp g d · · (fun x l => x.pv (pcodeOf na a) l))

/-- The team lanes of ACTIVE at which a predicate code holds, as a mask in team-lane positions (R229). -/
def State.teamMask (s : State) (cx : Cx) (g : Guard) (code : Nat) : Nat :=
  (cx.packs.map (fun p => (s.active cx g p &&& (s.pack p).pvMask code).toNat * 2 ^ s.teamLane p 0)).sum
/-- PANY: every member receives the whole mask (R229). -/
def execPany (g : Guard) (na : Bool) (d a : Fld) (s : State) : Host.Outcome State Fault Refusal :=
  issue (.pany g na d a) s (fun cx s =>
    if s.anyActive cx g then
      .ok (eachPack s cx.packs (fun _ x => x.sset (d.toNat - 384) (BitVec.ofNat 64 (s.teamMask cx g (pcodeOf na a)))))
    else .ok s)

/-! ### Probability predicates -/

/-- A Q lane from its code and lineage (R60). -/
def qMake (code lin : Nat) : BitVec 24 := BitVec.ofNat 24 (code % 65536 + lin % 256 * 65536)
/-- The code of a Q lane. -/
def qCode (q : BitVec 24) : Nat := q.toNat % 65536
/-- The lineage of a Q lane. -/
def qLin (q : BitVec 24) : Nat := q.toNat / 65536
/-- QMUL of R60. -/
def qmul (f h : Nat) : Nat := nearestDiv (f * h) 65535
/-- p = RNE32(f / 65,535). -/
def qFrac (f : Nat) : W32 := rne32 (fDiv (ofInt f 0) (ofInt 65535 0))

/-- The code of QCMP (R63, R64). -/
def qcmpCode (rel : QRel) (a b beta : W32) : Nat :=
  if beta = 0x7F800000 then (if qrelHolds rel (f32 a) (f32 b) then 65535 else 0)
  else
    let sub := fun (u v : W32) => f32 (rne32 (fAdd .rn (f32 u) (fNeg (f32 v))))
    let x := fun (d : FVal) => f32 (rne32 (fMul d (f32 beta)))
    match rel with
    | .gt => sigCode (x (sub a b))
    | .ge => sigCode (x (sub a b))
    | .lt => sigCode (x (sub b a))
    | .le => sigCode (x (sub b a))
    | .eq => eqdCode (x (fAbs (sub a b)))
    | .ne => 65535 - eqdCode (x (fAbs (sub a b)))
/-- QCMP (R230). -/
def execQcmp (g : Guard) (rel : QRel) (lin : BitVec 3) (d a b : Fld) (s : State) : Host.Outcome State Fault Refusal :=
  issue (.qcmp g rel lin d a b) s (fun cx s => do
    if cx.packs.any (fun p => (s.pack p).beta == 0x7F800000) then bndUse s (s.acting cx g) [a, b]
    qOp g d cx s (fun x l => qMake (qcmpCode rel (x.srcv .fp a l) (x.srcv .fp b l) x.beta) (2 ^ lin.toNat)))

/-- Whether the product rule applies (R61). -/
def productRule (rule : QRule) (u v : BitVec 24) : Bool :=
  match rule with | .ind => true | .dep => false | .none => qLin u &&& qLin v == 0
/-- QAND (R61, R231). -/
def execQand (g : Guard) (rule : QRule) (d a b : Fld) (s : State) : Host.Outcome State Fault Refusal :=
  issue (.qand g rule d a b) s (qOp g d · · (fun x l =>
    let u := x.qget a.toNat l
    let v := x.qget b.toNat l
    qMake (if productRule rule u v then qmul (qCode u) (qCode v) else min (qCode u) (qCode v)) (qLin u ||| qLin v)))
/-- QOR (R61, R231). -/
def execQor (g : Guard) (rule : QRule) (d a b : Fld) (s : State) : Host.Outcome State Fault Refusal :=
  issue (.qor g rule d a b) s (qOp g d · · (fun x l =>
    let u := x.qget a.toNat l
    let v := x.qget b.toNat l
    qMake (if productRule rule u v then nearestDiv ((qCode u + qCode v) * 65535 - qCode u * qCode v) 65535
           else max (qCode u) (qCode v)) (qLin u ||| qLin v)))
/-- QNOT (R61, R231). -/
def execQnot (g : Guard) (d a : Fld) (s : State) : Host.Outcome State Fault Refusal :=
  issue (.qnot g d a) s (qOp g d · · (fun x l => let u := x.qget a.toNat l; qMake (65535 - qCode u) (qLin u)))
/-- The blend of R66. -/
def blend (f : Nat) (a b : W32) : W32 :=
  if f = 65535 then a else if f = 0 then b
  else rne32 (fFma .rn (f32 (qFrac f)) (f32 (rne32 (fAdd .rn (f32 a) (fNeg (f32 b))))) (f32 b))
/-- QBLEND (R232). -/
def execQblend (g : Guard) (d a b c : Fld) (s : State) : Host.Outcome State Fault Refusal :=
  issue (.qblend g d a b c) s (vecOp g d [b, c] · · (fun x l =>
    blend (qCode (x.qget a.toNat l)) (x.srcv .fp b l) (x.srcv .fp c l)))
/-- QDRAW (R67, R233). -/
def execQdraw (g : Guard) (stream : BitVec 8) (d a : Fld) (s : State) : Host.Outcome State Fault Refusal :=
  issue (.qdraw g stream d a) s (fun cx s => predOp g d cx s (fun x l =>
    let f := qCode (x.qget a.toNat l)
    f == 65535 || decide (s.drawAt x l 0 stream.toNat % 65536 < f)))
/-- g of R65. -/
def qgradVal (f : Nat) (beta : W32) : W32 :=
  if f = 0 ∨ f = 65535 then 0
  else
    let p := f32 (qFrac f)
    let q := f32 (rne32 (fAdd .rn (.fin false 1 0) (fNeg p)))
    rne32 (fMul (f32 (rne32 (fMul p q))) (f32 beta))
/-- QGRAD (R234). -/
def execQgrad (g : Guard) (d a : Fld) (s : State) : Host.Outcome State Fault Refusal :=
  issue (.qgrad g d a) s (vecOp g d [] · · (fun x l => qgradVal (qCode (x.qget a.toNat l)) x.beta))
/-- QMOV (R235). -/
def execQmov (g : Guard) (dir : QDir) (d a : Fld) (s : State) : Host.Outcome State Fault Refusal :=
  issue (.qmov g dir d a) s (fun cx s => match dir with
    | .qq => qOp g d cx s (fun x l => x.qget a.toNat l)
    | .fromV => qOp g d cx s (fun x l => (x.srcv .int a l).setWidth 24)
    | .toV => vecOp g d [] cx s (fun x l => (x.qget a.toNat l).setWidth 32))
/-- QLIN (R236). -/
def execQlin (g : Guard) (op : LinOp) (mask : BitVec 8) (d a : Fld) (s : State) : Host.Outcome State Fault Refusal :=
  issue (.qlin g op mask d a) s (qOp g d · · (fun x l =>
    let u := x.qget a.toNat l
    let old := u.extractLsb' 16 8
    let new := match op with | .set => mask | .clr => old &&& ~~~ mask | .or => old ||| mask
    new ++ u.extractLsb' 0 16))

end Sys2Proof.Machine
end

