-- ==== Sys2Proof/Machine/Vector.lean ====
section
/-!
DEFINITION. Vector integer instructions (R240 to R244) and floating-point instructions (R245 to R251).
-/
namespace Sys2Proof.Machine
open Sys2Proof

/-! ### Vector integer -/

/-- A vector source of an integer TYPE: a constant is truncated and placed in every element position (R240). -/
def Pack.srcvEl (x : Pack) (ty : IntTy) (f : Fld) (l : Nat) : W32 :=
  if f.toNat < 480 then x.srcv .int f l
  else
    let c := (x.srcv .int f l).toNat % 2 ^ ty.width
    BitVec.ofNat 32 ((List.range (32 / ty.width)).map (fun e => c * 2 ^ (ty.width * e))).sum
/-- The elements of a lane computed one by one from the raw elements of three sources (R240). -/
def elemsOf (ty : IntTy) (sat : Bool) (a b c : W32) (f : Nat → Nat → Nat → Int) : W32 :=
  let w := ty.width
  BitVec.ofNat 32 ((List.range (32 / w)).map (fun e =>
    wrapTo w (satTo ty sat (f (elem a w e) (elem b w e) (elem c w e))) * 2 ^ (w * e))).sum
/-- A vector integer instruction of the table "Vector integer" (R240). -/
def vint (g : Guard) (ty : IntTy) (sat : Bool) (d : Fld) (srcs : List Fld) (f : Nat → Nat → Nat → Int) (cx : Cx) (s : State) :
    M State :=
  let src := fun (x : Pack) i l => match srcs.drop i with | [] => 0 | r :: _ => x.srcvEl ty r l
  vecOp g d srcs cx s (fun x l => elemsOf ty sat (src x 0 l) (src x 1 l) (src x 2 l) f)

/-- VADD (R240). -/
def execVadd (g : Guard) (ty : IntTy) (sat : Bool) (d a b : Fld) (s : State) : Host.Outcome State Fault Refusal :=
  issue (.vadd g ty sat d a b) s (vint g ty sat d [a, b] (fun a b _ => tval ty a + tval ty b))
/-- VSUB (R240). -/
def execVsub (g : Guard) (ty : IntTy) (sat : Bool) (d a b : Fld) (s : State) : Host.Outcome State Fault Refusal :=
  issue (.vsub g ty sat d a b) s (vint g ty sat d [a, b] (fun a b _ => tval ty a - tval ty b))
/-- VMUL (R240). -/
def execVmul (g : Guard) (ty : IntTy) (sat : Bool) (d a b : Fld) (s : State) : Host.Outcome State Fault Refusal :=
  issue (.vmul g ty sat d a b) s (vint g ty sat d [a, b] (fun a b _ => tval ty a * tval ty b))
/-- VMULH (R240). -/
def execVmulh (g : Guard) (ty : IntTy) (d a b : Fld) (s : State) : Host.Outcome State Fault Refusal :=
  issue (.vmulh g ty d a b) s (vint g ty false d [a, b] (fun a b _ => tval ty a * tval ty b / (2 ^ ty.width : Nat)))
/-- VMAD (R240). -/
def execVmad (g : Guard) (ty : IntTy) (sat : Bool) (d a b c : Fld) (s : State) : Host.Outcome State Fault Refusal :=
  issue (.vmad g ty sat d a b c) s (vint g ty sat d [a, b, c] (fun a b c => tval ty a * tval ty b + tval ty c))
/-- VAND (R240). -/
def execVand (g : Guard) (ty : IntTy) (d a b : Fld) (s : State) : Host.Outcome State Fault Refusal :=
  issue (.vand g ty d a b) s (vint g ty false d [a, b] (fun a b _ => (a &&& b : Nat)))
/-- VOR (R240). -/
def execVor (g : Guard) (ty : IntTy) (d a b : Fld) (s : State) : Host.Outcome State Fault Refusal :=
  issue (.vor g ty d a b) s (vint g ty false d [a, b] (fun a b _ => (a ||| b : Nat)))
/-- VXOR (R240). -/
def execVxor (g : Guard) (ty : IntTy) (d a b : Fld) (s : State) : Host.Outcome State Fault Refusal :=
  issue (.vxor g ty d a b) s (vint g ty false d [a, b] (fun a b _ => (a ^^^ b : Nat)))
/-- VNOT (R240). -/
def execVnot (g : Guard) (ty : IntTy) (d a : Fld) (s : State) : Host.Outcome State Fault Refusal :=
  issue (.vnot g ty d a) s (vint g ty false d [a] (fun a _ _ => ((2 ^ ty.width - 1) ^^^ a : Nat)))
/-- VSHL (R240). -/
def execVshl (g : Guard) (ty : IntTy) (d a b : Fld) (s : State) : Host.Outcome State Fault Refusal :=
  issue (.vshl g ty d a b) s (vint g ty false d [a, b] (fun a b _ => shlVal ty.width (tval ty a) b))
/-- VSHR (R240). -/
def execVshr (g : Guard) (ty : IntTy) (d a b : Fld) (s : State) : Host.Outcome State Fault Refusal :=
  issue (.vshr g ty d a b) s (vint g ty false d [a, b] (fun a b _ => shrVal ty.width a b))
/-- VSAR (R240). -/
def execVsar (g : Guard) (ty : IntTy) (d a b : Fld) (s : State) : Host.Outcome State Fault Refusal :=
  issue (.vsar g ty d a b) s (vint g ty false d [a, b] (fun a b _ => sarVal ty.width a b))
/-- VMIN (R240). -/
def execVmin (g : Guard) (ty : IntTy) (d a b : Fld) (s : State) : Host.Outcome State Fault Refusal :=
  issue (.vmin g ty d a b) s (vint g ty false d [a, b] (fun a b _ => min (tval ty a) (tval ty b)))
/-- VMAX (R240). -/
def execVmax (g : Guard) (ty : IntTy) (d a b : Fld) (s : State) : Host.Outcome State Fault Refusal :=
  issue (.vmax g ty d a b) s (vint g ty false d [a, b] (fun a b _ => max (tval ty a) (tval ty b)))
/-- VABS (R240). -/
def execVabs (g : Guard) (ty : IntTy) (sat : Bool) (d a : Fld) (s : State) : Host.Outcome State Fault Refusal :=
  issue (.vabs g ty sat d a) s (vint g ty sat d [a] (fun a _ _ => ((tval ty a).natAbs : Nat)))
/-- VPOP (R240). -/
def execVpop (g : Guard) (ty : IntTy) (d a : Fld) (s : State) : Host.Outcome State Fault Refusal :=
  issue (.vpop g ty d a) s (vint g ty false d [a] (fun a _ _ => (popCount ty.width a : Nat)))
/-- VCLZ (R240). -/
def execVclz (g : Guard) (ty : IntTy) (d a : Fld) (s : State) : Host.Outcome State Fault Refusal :=
  issue (.vclz g ty d a) s (vint g ty false d [a] (fun a _ _ => (leadZeros ty.width a : Nat)))

/-- VCMP (R241). -/
def execVcmp (g : Guard) (ty : IntTy) (rel : Rel) (d a b : Fld) (s : State) : Host.Outcome State Fault Refusal :=
  issue (.vcmp g ty rel d a b) s (fun cx s => do
    bndUse s (s.acting cx g) [a, b]
    predOp g d cx s (fun x l => relHolds rel (tval ty (x.srcv .int a l).toNat) (tval ty (x.srcv .int b l).toNat)))
/-- VSEL (R242). -/
def execVsel (g : Guard) (ty : IntTy) (nc : Bool) (d a b c : Fld) (s : State) : Host.Outcome State Fault Refusal :=
  issue (.vsel g ty nc d a b c) s (vecOp g d [a, b] · · (fun x l =>
    if x.pv (pcodeOf nc c) l then x.srcv .int a l else x.srcv .int b l))
/-- VMOV (R243). -/
def execVmov (g : Guard) (ty : IntTy) (d a : Fld) (s : State) : Host.Outcome State Fault Refusal :=
  issue (.vmov g ty d a) s (vecOp g d [a] · · (fun x l => x.srcv .int a l))
/-- VMOVI (R243). -/
def execVmovi (g : Guard) (d : Fld) (imm : BitVec 32) (s : State) : Host.Outcome State Fault Refusal :=
  issue (.vmovi g d imm) s (vecOp g d [] · · (fun _ _ => imm))
/-- VBFE (R244). -/
def execVbfe (g : Guard) (ty : IntTy) (d a b : Fld) (s : State) : Host.Outcome State Fault Refusal :=
  issue (.vbfe g ty d a b) s (vecOp g d [a, b] · · (fun x l =>
    let b := (x.srcv .int b l).toNat
    BitVec.ofInt 32 (bitField ty.signed (x.srcv .int a l).toNat (b % 32) (min (b / 256 % 64) 32))))
/-- VBFI (R244). -/
def execVbfi (g : Guard) (ty : IntTy) (d a b c : Fld) (s : State) : Host.Outcome State Fault Refusal :=
  issue (.vbfi g ty d a b c) s (vecOp g d [a, b, c] · · (fun x l =>
    let b := (x.srcv .int b l).toNat
    BitVec.ofNat 32 (bitInsert 32 (x.srcv .int a l).toNat (x.srcv .int c l).toNat (b % 32) (min (b / 256 % 64) 32))))

/-! ### Floating point -/

/-- The draw of an instruction's element under .SR; 0 under every other mode, which no rounding reads (R53, R55). -/
def State.srDraw (s : State) (x : Pack) (l e : Nat) (rnd : Rnd) (stream : Nat) : Nat :=
  if rnd = .sr then s.drawAt x l e stream else 0
/-- An FP32 instruction: the exact result rounded once (R245). -/
def fp32 (g : Guard) (rnd : Rnd) (sat : Bool) (stream : BitVec 8) (d : Fld) (srcs : List Fld) (f : Pack → Nat → FVal)
    (cx : Cx) (s : State) : M State :=
  vecOp g d srcs cx s (fun x l => BitVec.ofNat 32 (F32.write rnd sat (s.srDraw x l 0 rnd stream.toNat) (f x l)))
/-- The FP32 value of a source lane. -/
def Pack.fsrc (x : Pack) (f : Fld) (l : Nat) : FVal := f32 (x.srcv .fp f l)

/-- FADD (R245). -/
def execFadd (g : Guard) (rnd : Rnd) (sat : Bool) (stream : BitVec 8) (d a b : Fld) (s : State) : Host.Outcome State Fault Refusal :=
  issue (.fadd g rnd sat stream d a b) s (fp32 g rnd sat stream d [a, b] (fun x l => fAdd rnd (x.fsrc a l) (x.fsrc b l)))
/-- FSUB (R245). -/
def execFsub (g : Guard) (rnd : Rnd) (sat : Bool) (stream : BitVec 8) (d a b : Fld) (s : State) : Host.Outcome State Fault Refusal :=
  issue (.fsub g rnd sat stream d a b) s (fp32 g rnd sat stream d [a, b] (fun x l => fAdd rnd (x.fsrc a l) (fNeg (x.fsrc b l))))
/-- FMUL (R245). -/
def execFmul (g : Guard) (rnd : Rnd) (sat : Bool) (stream : BitVec 8) (d a b : Fld) (s : State) : Host.Outcome State Fault Refusal :=
  issue (.fmul g rnd sat stream d a b) s (fp32 g rnd sat stream d [a, b] (fun x l => fMul (x.fsrc a l) (x.fsrc b l)))
/-- FFMA (R245). -/
def execFfma (g : Guard) (rnd : Rnd) (sat : Bool) (stream : BitVec 8) (d a b c : Fld) (s : State) : Host.Outcome State Fault Refusal :=
  issue (.ffma g rnd sat stream d a b c) s (fp32 g rnd sat stream d [a, b, c] (fun x l => fFma rnd (x.fsrc a l) (x.fsrc b l) (x.fsrc c l)))
/-- FMIN (R246). -/
def execFmin (g : Guard) (d a b : Fld) (s : State) : Host.Outcome State Fault Refusal :=
  issue (.fmin g d a b) s (fp32 g .rn false 0 d [a, b] (fun x l => fMin (x.fsrc a l) (x.fsrc b l)))
/-- FMAX (R246). -/
def execFmax (g : Guard) (d a b : Fld) (s : State) : Host.Outcome State Fault Refusal :=
  issue (.fmax g d a b) s (fp32 g .rn false 0 d [a, b] (fun x l => fMax (x.fsrc a l) (x.fsrc b l)))
/-- FRCP (R248). -/
def execFrcp (g : Guard) (d a : Fld) (s : State) : Host.Outcome State Fault Refusal :=
  issue (.frcp g d a) s (fp32 g .rn false 0 d [a] (fun x l => fRcp (x.fsrc a l)))
/-- FRSQ (R248). -/
def execFrsq (g : Guard) (d a : Fld) (s : State) : Host.Outcome State Fault Refusal :=
  issue (.frsq g d a) s (fp32 g .rn false 0 d [a] (fun x l => fRsq (x.fsrc a l)))
/-- FSQRT (R248). -/
def execFsqrt (g : Guard) (d a : Fld) (s : State) : Host.Outcome State Fault Refusal :=
  issue (.fsqrt g d a) s (fp32 g .rn false 0 d [a] (fun x l => fSqrt (x.fsrc a l)))
/-- FEXP2 (R248). -/
def execFexp2 (g : Guard) (d a : Fld) (s : State) : Host.Outcome State Fault Refusal :=
  issue (.fexp2 g d a) s (fp32 g .rn false 0 d [a] (fun x l => fExp2 (x.fsrc a l)))
/-- FLOG2 (R248). -/
def execFlog2 (g : Guard) (d a : Fld) (s : State) : Host.Outcome State Fault Refusal :=
  issue (.flog2 g d a) s (fp32 g .rn false 0 d [a] (fun x l => fLog2 (x.fsrc a l)))
/-- FCMP (R247). -/
def execFcmp (g : Guard) (rel : QRel) (d a b : Fld) (s : State) : Host.Outcome State Fault Refusal :=
  issue (.fcmp g rel d a b) s (fun cx s => do
    bndUse s (s.acting cx g) [a, b]
    predOp g d cx s (fun x l => qrelHolds rel (x.fsrc a l) (x.fsrc b l)))
/-- FRND (R249). -/
def execFrnd (g : Guard) (rnd : Rnd) (d a : Fld) (s : State) : Host.Outcome State Fault Refusal :=
  issue (.frnd g rnd d a) s (fp32 g .rn false 0 d [a] (fun x l => fRnd rnd (x.fsrc a l)))
/-- FCLASS (R250). -/
def execFclass (g : Guard) (d a : Fld) (s : State) : Host.Outcome State Fault Refusal :=
  issue (.fclass g d a) s (vecOp g d [a] · · (fun x l => fClass (x.srcv .fp a l)))

/-- The format of HFMA2 (R251). -/
def hfmtOf (f : HFmt) : FFmt := match f with | .f16 => F16 | .bf16 => BF16
/-- Element `e` of a 16-bit source, a constant converted to the format in RNE (R192, R251). -/
def Pack.hsrc (x : Pack) (fmt : FFmt) (f : Fld) (l e : Nat) : FVal :=
  if f.toNat < 480 then fmt.read (elem (x.srcv .fp f l) 16 e)
  else fmt.read (fmt.write .rn false 0 (f32 (x.srcv .fp f l)))
/-- HFMA2 (R251). -/
def execHfma2 (g : Guard) (rnd : Rnd) (sat : Bool) (stream : BitVec 8) (fmt : HFmt) (d a b c : Fld) (s : State) : Host.Outcome State Fault Refusal :=
  issue (.hfma2 g rnd sat stream fmt d a b c) s (fun cx s => vecOp g d [a, b, c] cx s (fun x l =>
    let ff := hfmtOf fmt
    let one := fun e => ff.write rnd sat (s.srDraw x l e rnd stream.toNat)
      (fFma rnd (x.hsrc ff a l e) (x.hsrc ff b l e) (x.hsrc ff c l e))
    BitVec.ofNat 32 (one 0 + one 1 * 65536)))

end Sys2Proof.Machine
end

