-- ==== Sys2Proof/Machine/Convert.lean ====
section
/-!
DEFINITION. Conversions (R252 to R257).
-/
namespace Sys2Proof.Machine
open Sys2Proof

/-- The floating-point format of a conversion code (R252); Q16 and integers have none. -/
def cfmtFF (f : CFmt) : FFmt :=
  match f with
  | .f32 => F32 | .f16 => F16 | .bf16 => BF16 | .e5m2 => E5M2 | .e4m3 => E4M3 | .e2m1 => E2M1
  | .i32 => F32 | .n32 => F32 | .i16 => F32 | .n16 => F32 | .i8 => F32 | .n8 => F32 | .i4 => F32 | .n4 => F32 | .q16 => F32
/-- Whether an integer format is signed (R44). -/
def cfmtSigned (f : CFmt) : Bool :=
  match f with
  | .i32 => true | .i16 => true | .i8 => true | .i4 => true
  | .n32 => false | .n16 => false | .n8 => false | .n4 => false
  | .f32 => false | .f16 => false | .bf16 => false | .e5m2 => false | .e4m3 => false | .e2m1 => false | .q16 => false
/-- The value of a code of an integer format, or of a Q16 code as an integer (R44). -/
def cfmtInt (f : CFmt) (u : Nat) : Int := if cfmtSigned f then signedOf f.width u else u
/-- An integer clamped to a format's range (R52). -/
def cfmtClamp (f : CFmt) (x : Int) : Int :=
  let w := f.width
  if cfmtSigned f then min (max x (-((2 ^ (w - 1) : Nat) : Int))) (((2 ^ (w - 1) : Nat) : Int) - 1)
  else min (max x 0) (((2 ^ w : Nat) : Int) - 1)
/-- A value rounded to an integer of a format, saturating; NaN gives 0 (R52). -/
def toIntFmt (f : CFmt) (rnd : Rnd) (dr : Nat) : FVal → Int
  | .nan => 0
  | .inf neg => cfmtClamp f (if neg then -(2 ^ 40 : Int) else 2 ^ 40)
  | .fin neg m e => cfmtClamp f (roundInt rnd dr neg m e)
/-- The table "Conversion pairs": the destination code of a source code (R253). -/
def convert (sf df : CFmt) (rnd : Rnd) (sat : Bool) (dr u : Nat) : Nat :=
  if sf.float then
    let x := (cfmtFF sf).read u
    if df.float then (cfmtFF df).write rnd sat dr x
    else if df = .q16 then wrapTo 16 (toIntFmt .q16 rnd dr (fMul x (ofInt 65535 0)))
    else wrapTo df.width (toIntFmt df rnd dr x)
  else if sf = .q16 then
    (if df = .q16 then u else (cfmtFF df).write rnd false dr (fDiv (ofInt u 0) (ofInt 65535 0)))
  else if df.float then (cfmtFF df).write rnd sat dr (ofInt (cfmtInt sf u) 0)
  else wrapTo df.width (if sat then cfmtClamp df (cfmtInt sf u) else cfmtInt sf u)

/-- A source element of CVT; a constant is read in the column of the format's kind, converted or truncated to the
format (R192, R254), Q16's in the Integer column, and stands in every element position (DESIGN CHOICE, log 127). -/
def Pack.cvtSrc (x : Pack) (sf : CFmt) (f : Fld) (l pos : Nat) : Nat :=
  if f.toNat < 480 then elem (x.srcv .int f l) sf.width pos
  else if sf.float then (cfmtFF sf).write .rn false 0 (f32 (x.srcv .fp f l))
  else (x.srcv .int f l).toNat % 2 ^ sf.width
/-- CVT (R254). -/
def execCvt (g : Guard) (rnd : Rnd) (sat : Bool) (stream : BitVec 8) (df sf : CFmt) (spos : BitVec 3) (d a : Fld) (s : State) :
    Host.Outcome State Fault Refusal :=
  issue (.cvt g rnd sat stream df sf spos d a) s (fun cx s => vecOp g d [a] cx s (fun x l =>
    let y := convert sf df rnd sat (s.srDraw x l 0 rnd stream.toNat) (x.cvtSrc sf a l spos.toNat)
    if cfmtSigned df then BitVec.ofInt 32 (cfmtInt df y) else BitVec.ofNat 32 y))
/-- CVTPK (R255). -/
def execCvtpk (g : Guard) (rnd : Rnd) (sat : Bool) (stream : BitVec 8) (df sf : CFmt) (d a : Fld) (s : State) :
    Host.Outcome State Fault Refusal :=
  issue (.cvtpk g rnd sat stream df sf d a) s (fun cx s =>
    let n := 32 / df.width
    vecOp g d ((List.range n).map (fun e => a + BitVec.ofNat 9 e)) cx s (fun x l =>
      BitVec.ofNat 32 ((List.range n).map (fun e =>
        convert sf df rnd sat (s.srDraw x l e rnd stream.toNat) (x.vget (a.toNat + e) l).toNat * 2 ^ (df.width * e))).sum))

/-- BLOCKX of R256: `none` for a NaN block. -/
def blockX (xs : List FVal) (emax : Int) : Option Int :=
  if xs.any (fun x => match x with | .fin _ _ _ => false | _ => true) then none
  else match blockMax xs with
    | none => some 0
    | some l => some (min (max (l - emax) (-127)) 127)
/-- A finite value over 2^X. -/
def scaleDown (k : Int) : FVal → FVal
  | .fin neg m e => .fin neg m (e - k)
  | v => v
/-- The draw of element `j` of a block conversion (R256). -/
def State.blockDraw (s : State) (x : Pack) (l j : Nat) (rnd : Rnd) (stream : Nat) : Nat :=
  if rnd = .sr then s.drawAt x l (j % 8) ((stream + j / 8) % 256) else 0
/-- The FP32 values of a lane of consecutive registers. -/
def Pack.blockSrc (x : Pack) (a n l : Nat) : List FVal := (List.range n).map (fun j => f32 (x.vget (a + j) l))
/-- A block conversion: the lane's image as one number in consecutive registers, the scale in a byte of V`c`
(R256, R257). -/
def blockConv (g : Guard) (d a c nd na sb : Nat) (f : Pack → Nat → Nat × Nat) (cx : Cx) (s : State) : M State :=
  .ok (eachPack s (s.acting cx g) (fun p x =>
    let m := s.active cx g p
    let anyB := (List.range na).any (fun j => x.tagB (a + j))
    let y := (lanesOf m).foldl (fun y l =>
      let r := f x l
      let y := (List.range nd).foldl (fun y i => y.vset (d + i) l (BitVec.ofNat 32 (r.1 / 2 ^ (32 * i)))) y
      y.vset c l (putBits (x.vget c l) (8 * sb) 8 r.2)) x
    (y.settleTags d nd m anyB).settleTag c m anyB))
/-- emax and element format of CVTMX (R256). -/
def mxFmt (f : MxFmt) : FFmt × Int := match f with | .e5m2 => (E5M2, 15) | .e4m3 => (E4M3, 8) | .e2m1 => (E2M1, 2)
/-- CVTMX (R256). -/
def execCvtmx (g : Guard) (rnd : Rnd) (stream : BitVec 8) (df : MxFmt) (sb : BitVec 2) (d a c : Fld) (s : State) :
    Host.Outcome State Fault Refusal :=
  issue (.cvtmx g rnd stream df sb d a c) s (fun cx s =>
    let (ff, emax) := mxFmt df
    let w := 1 + ff.eb + ff.mb
    blockConv g d.toNat a.toNat c.toNat df.nregs 32 sb.toNat (fun x l =>
      let xs := x.blockSrc a.toNat 32 l
      match blockX xs emax with
      | none => (0, 255)
      | some k => ((xs.zipIdx.map (fun e => ff.write rnd true (s.blockDraw x l e.2 rnd stream.toNat) (scaleDown k e.1) * 2 ^ (w * e.2))).sum,
                   (k + 127).toNat)) cx s)
/-- CVTL6 (R257). -/
def execCvtl6 (g : Guard) (rnd : Rnd) (stream : BitVec 8) (b16 : Bool) (sb : BitVec 2) (d a c : Fld) (s : State) :
    Host.Outcome State Fault Refusal :=
  issue (.cvtl6 g rnd stream b16 sb d a c) s (fun cx s =>
    let n := if b16 then 16 else 32
    blockConv g d.toNat a.toNat c.toNat (if b16 then 3 else 6) n sb.toNat (fun x l =>
      let xs := x.blockSrc a.toNat n l
      match blockX xs 3 with
      | none => (0, 255)
      | some k => ((xs.zipIdx.map (fun e => (match scaleDown k e.1 with
                      | .fin neg m ex => l6Round rnd (s.blockDraw x l e.2 rnd stream.toNat) neg m ex
                      | _ => 0) * 2 ^ (6 * e.2))).sum,
                   (k + 127).toNat)) cx s)

end Sys2Proof.Machine
end

