-- ==== Sys2Proof/Machine/Lanes.lean ====
section
/-!
DEFINITION. Team collectives (R27, R28) and the lane operations (R57 to R59, R258 to R265).
-/
namespace Sys2Proof.Machine
open Sys2Proof

/-! ### Team collectives -/

/-- A part of a collective: the pack, its slot, and the execute mask it contributes (R27). -/
structure TPart where
  pack : Nat
  slot : Nat
  mask : Lanes
  deriving DecidableEq, Repr

/-- Whether the pack issues as part of a ganged team (R24). -/
def State.isGang (s : State) (p : Nat) : Bool := (s.launchOf p).teamW != 16 && (s.pack p).gang
/-- The context of another member at the same collective. -/
def State.partCx (s : State) (cx : Cx) (q k : Nat) : Cx :=
  { packs := [q], slot := k, pc := (s.path q k).pc, cl := ((s.pack q).slot k).clause.getD cx.cl }
/-- A trap or fault of a collective that split members issued: each that raised it takes it at its own slot (R28, R372). -/
def takeParts (s : State) (parts : List TPart) (e : Exn) : State :=
  settleEnded <| parts.foldl (fun s t =>
    if e.who.isEmpty then takeTrap s t.pack t.slot e.cause e.info
    else match e.who.find? (fun w => w.1 == t.pack) with
      | some w => takeTrap s t.pack t.slot e.cause w.2
      | none => s.modSlot t.pack t.slot (fun sl => { sl with stall := none })) s
/-- As `takeParts`, once an XMV that another slot of a part has issued is complete (R301) and open regions are ended (R404). -/
def trapParts (s : State) (k : Nat) (parts : List TPart) (e : Exn) : M State := do
  waitIf (parts.any (fun t => ((s.pack t.pack).slot (1 - t.slot)).stall == some .xmv)) s .interlock
  match endRegions s k (parts.map (·.pack)) with
  | .ok t => .error (.handled (takeParts t parts e))
  | .error (.stall t w) => .error (.stall t w)
  | .error (.handled t) => .error (.handled t)
  | .error (.exc _) => .error (.handled (takeParts s parts e))

/-- Whether the collectives at which every live member waits, the issuing slot's at `a` among them, are not all at one address (R28). A
member whose two slots wait counts with both: while one address is common to all, that collective runs (DESIGN CHOICE, log 125). -/
def apart (s : State) (p a : Nat) (others : List Nat) : Bool :=
  others.all (fun q => !(collSlots s q).isEmpty) &&
    !((collSlots s p).map (·.2) ++ [a]).any (fun b => others.all (fun q => !(arrivedAt s q b).isEmpty))
/-- The slots of a split team's members, each that of its member's first arrival at the address `a` (R27). -/
def partsAt (s : State) (cx : Cx) (g : Guard) (a : Nat) (ps : List Nat) : List TPart :=
  ps.filterMap (fun q => (arrivedAt s q a).head?.map (fun k => ⟨q, k, s.active (s.partCx cx q k) g q⟩))

/-- A TEAM COLLECTIVE (R27, R28): ganged it runs at once. In a split team the issuing slot arrives, after its pack's other slot where that
already waits, and the arrival that completes a run levels LCLK, once, also where the run must still wait (R364). The run comes when every
live member has a slot at the address, once over the union of the first arrivals, and every part retires; a later arrival by another path
of a pack waits for the next run. Where all wait and no address is common, ILLOP is raised at the first arrival of each (log 125). -/
def collective (i : Instr) (g : Guard) (run : List TPart → State → M State) (cx : Cx) (s : State) : M State :=
  if g = 15 then .ok s
  else
    let p := cx.packs.headD 0
    if (s.launchOf p).teamW = 16 ∨ s.isGang p then run (cx.packs.map (fun q => (⟨q, cx.slot, s.active cx g q⟩ : TPart))) s
    else
      let a := s.codeBase p + cx.pc
      let others := (s.liveTeam p).filter (fun q => q != p)
      let fresh := ((s.pack p).slot cx.slot).stall != some .collective
      let first := fresh && (arrivedAt s p a).isEmpty || (arrivedAt s p a).head? == some cx.slot
      let s := if fresh then s.modPack p (fun x => x.modSlot cx.slot (fun sl =>
        { sl with came := if (collSlots s p).isEmpty then 0 else (x.slot (1 - cx.slot)).came + 1 })) else s
      let s := if fresh && runComplete s others a (arrivedAt s p a).length then levelLclk s p 0 else s
      if first && runComplete s others a 0 then
        let parts := ⟨p, cx.slot, s.active cx g p⟩ :: partsAt s cx g a others
        if parts.any (fun t => interlocked s i t.pack) then .error (.stall s .collective)
        else
          match run parts s with
          | .ok t => .error (.handled (parts.foldl (fun t q =>
              t.modPack q.pack (retireIn i (s.partCx cx q.pack q.slot) s.clk.toNat)) t))
          | .error (.stall _ _) => .error (.stall s .collective)
          | .error (.exc e) => trapParts s cx.slot parts e
          | .error (.handled t) => .error (.handled t)
      else if apart s p a others then
        let ws := (p, ((collSlots s p).map (·.1)).headD cx.slot) :: others.map (fun q => (q, ((collSlots s q).map (·.1)).headD 0))
        trapParts s cx.slot (ws.map (fun w => ⟨w.1, w.2, 0⟩))
          { cause := cILLOP, info := 0, who := ws.map (fun w => (w.1, BitVec.ofNat 64 (s.path w.1 w.2).pc)) }
      else .error (.stall s .collective)

/-! ### Spans -/

/-- The packs of a lane operation's span in lane order: the whole team when it issues ganged or as a team reduction, else
the pack (R259). -/
def State.span (s : State) (cx : Cx) (team : Bool) : List Nat :=
  let p := cx.packs.headD 0
  if team || s.isGang p then s.team p else [p]
/-- A lane of the span as a source; an absent lane reads 0 (R259). -/
def State.spanLane (s : State) (sp : List Nat) (ty : OpTy) (f : Fld) (ln : Nat) : W32 :=
  let x := s.pack (nth 0 sp (ln / 16))
  if x.present.getLsbD (ln % 16) then x.srcv ty f (ln % 16) else 0
/-- Where a pack stands in the span. -/
def spanBase (sp : List Nat) (p : Nat) : Nat := 16 * (sp.findIdx (fun q => q == p))
/-- Whether any pack of the span holds a source tagged B (R259). -/
def State.spanB (s : State) (sp : List Nat) (f : Fld) : Bool := sp.any (fun q => (s.pack q).srcB f)

/-- The source lane of VSHF (R260). -/
def shfLane (mode : ShMode) (n l k : Nat) : Nat :=
  match mode with
  | .idx => k % n
  | .xor => l ^^^ (k % n)
  | .up => if k ≤ l then l - k else l
  | .down => if l + k < n then l + k else l
/-- VSHF (R260). -/
def execVshf (g : Guard) (mode : ShMode) (d a b : Fld) (s : State) : Host.Outcome State Fault Refusal :=
  issue (.vshf g mode d a b) s (fun cx s =>
    let sp := s.span cx false
    .ok (eachPack s (s.acting cx g) (fun p x =>
      let m := s.active cx g p
      (x.writeLanes d.toNat m (fun l =>
        s.spanLane sp .int a (shfLane mode (16 * sp.length) (spanBase sp p + l) (x.srcv .int b l).toNat))).settleTag
          d.toNat m (s.spanB sp b || s.spanB sp a))))
/-- VBCST (R261). -/
def execVbcst (g : Guard) (d a b : Fld) (s : State) : Host.Outcome State Fault Refusal :=
  issue (.vbcst g d a b) s (fun cx s =>
    let sp := s.span cx false
    .ok (eachPack s (s.acting cx g) (fun p x =>
      let m := s.active cx g p
      (x.writeLanes d.toNat m (fun _ => s.spanLane sp .int a ((x.srcs b).toNat % (16 * sp.length)))).settleTag
        d.toNat m (s.spanB sp a))))

/-- The identity of a reduction (R57, R262). -/
def redIdent (ty : RedTy) (op : RedOp) : W32 :=
  match ty, op with
  | .f32, .add => 0x80000000 | .f32, .mul => 0x3F800000 | .f32, .min => 0x7F800000 | .f32, .max => 0xFF800000
  | .f32, .and => 0 | .f32, .or => 0 | .f32, .xor => 0
  | _, .add => 0 | _, .mul => 1 | _, .and => 0xFFFFFFFF | _, .or => 0 | _, .xor => 0
  | .i32, .min => 0x7FFFFFFF | .i32, .max => 0x80000000 | .n32, .min => 0xFFFFFFFF | .n32, .max => 0
/-- One combination (R57, R262). -/
def redComb (ty : RedTy) (op : RedOp) (u v : W32) : W32 :=
  match ty with
  | .f32 => (match op with
    | .add => rne32 (fAdd .rn (f32 u) (f32 v))
    | .mul => rne32 (fMul (f32 u) (f32 v))
    | .min => rne32 (fMin (f32 u) (f32 v))
    | .max => rne32 (fMax (f32 u) (f32 v))
    | .and => 0 | .or => 0 | .xor => 0)
  | .i32 => (match op with
    | .add => u + v | .mul => u * v | .min => if u.toInt ≤ v.toInt then u else v | .max => if u.toInt ≤ v.toInt then v else u
    | .and => u &&& v | .or => u ||| v | .xor => u ^^^ v)
  | .n32 => (match op with
    | .add => u + v | .mul => u * v | .min => if u ≤ v then u else v | .max => if u ≤ v then v else u
    | .and => u &&& v | .or => u ||| v | .xor => u ^^^ v)
/-- The pairwise tree over 2^k lanes (R57). -/
def redTree (f : W32 → W32 → W32) : Nat → List W32 → W32
  | 0, vs => vs.headD 0
  | k + 1, vs => f (redTree f k (vs.take (2 ^ k))) (redTree f k (vs.drop (2 ^ k)))
/-- The prefix of `n` lanes from the largest aligned subtrees, left to right (R58). -/
def redPrefix (f : W32 → W32 → W32) : Nat → Nat → List W32 → Option W32 → Option W32
  | 0, _, _, acc => acc
  | k + 1, n, vs, acc =>
    if 2 ^ k ≤ n then
      let v := redTree f k vs
      redPrefix f k (n - 2 ^ k) (vs.drop (2 ^ k)) (some (match acc with | some a => f a v | none => v))
    else redPrefix f k n vs acc
/-- The lanes of the span with the identity outside ACTIVE (R57). -/
def redLanes (s : State) (sp : List Nat) (parts : List TPart) (ty : RedTy) (op : RedOp) (a : Fld) : List W32 :=
  sp.flatMap (fun q =>
    let m : Lanes := match parts.find? (fun t => t.pack == q) with | some t => t.mask | none => 0
    (List.range 16).map (fun l =>
      if m.getLsbD l then (s.pack q).srcv (if ty = .f32 then .fp else .int) a l else redIdent ty op))
/-- Levels of the tree over a span. -/
def levels (sp : List Nat) : Nat := Nat.log2 (16 * sp.length)
/-- A reduction or prefix over the parts: `f` gives each active lane's value from the lanes and its index (R259, R262). -/
def redWrite (s : State) (sp : List Nat) (parts : List TPart) (d a : Fld) (val : Nat → W32) : M State := do
  let bad := s.spanB sp a
  let ps := parts.filter (fun t => t.mask != 0)
  raiseIn cBNDUSE (if bad && (s.launchOf (sp.headD 0)).det then ps.map (fun t => (t.pack, a.setWidth 64)) else [])
  return ps.foldl (fun s t => s.modPack t.pack (fun x =>
    (x.writeLanes d.toNat t.mask (fun l => val (spanBase sp t.pack + l))).settleTag d.toNat t.mask bad)) s
/-- The members' parts of an instruction that is not a team reduction. -/
def partsOf (s : State) (cx : Cx) (g : Guard) : List TPart := cx.packs.map (fun q => ⟨q, cx.slot, s.active cx g q⟩)
/-- VRED over its parts (R262). -/
def runVred (cx : Cx) (ty : RedTy) (op : RedOp) (team : Bool) (d a : Fld) (parts : List TPart) (s : State) : M State :=
  let sp := s.span cx team
  let v := redTree (redComb ty op) (levels sp) (redLanes s sp parts ty op a)
  redWrite s sp parts d a (fun _ => v)
/-- VRED (R262). -/
def execVred (g : Guard) (ty : RedTy) (op : RedOp) (team : Bool) (d a : Fld) (s : State) : Host.Outcome State Fault Refusal :=
  issue (.vred g ty op team d a) s (fun cx s =>
    if team then collective (.vred g ty op team d a) g (runVred cx ty op team d a) cx s
    else runVred cx ty op team d a (partsOf s cx g) s)
/-- VSCAN over its parts (R263). -/
def runVscan (cx : Cx) (ty : RedTy) (op : RedOp) (team excl : Bool) (d a : Fld) (parts : List TPart) (s : State) : M State :=
  let sp := s.span cx team
  let vs := redLanes s sp parts ty op a
  let on := fun ln => match parts.find? (fun t => t.pack == nth 0 sp (ln / 16)) with
    | some t => t.mask.getLsbD (ln % 16) | none => false
  let none' := if ty = .f32 ∧ op = .add then 0 else redIdent ty op
  redWrite s sp parts d a (fun ln =>
    let n := if excl then ln else ln + 1
    let v := if (List.range n).any on then (redPrefix (redComb ty op) 7 n vs none).getD none' else none'
    if ty = .f32 ∧ F32.read v.toNat = .nan then BitVec.ofNat 32 F32.nan else v)
/-- VSCAN (R263). -/
def execVscan (g : Guard) (ty : RedTy) (op : RedOp) (team excl : Bool) (d a : Fld) (s : State) : Host.Outcome State Fault Refusal :=
  issue (.vscan g ty op team excl d a) s (fun cx s =>
    if team then collective (.vscan g ty op team excl d a) g (runVscan cx ty op team excl d a) cx s
    else runVscan cx ty op team excl d a (partsOf s cx g) s)

/-- VBAL over its parts (R264). -/
def runVbal (cx : Cx) (team : Bool) (mode : BalMode) (d a : Fld) (parts : List TPart) (s : State) : M State :=
  let sp := s.span cx team
  let bits := (parts.map (fun t => (t.mask &&& (s.pack t.pack).pvMask a.toNat).toNat * 2 ^ spanBase sp t.pack)).sum
  .ok ((parts.filter (fun t => t.mask != 0)).foldl (fun s t => s.modPack t.pack (fun x =>
    let b := spanBase sp t.pack
    match mode with
    | .mask => ((x.writeLanes d.toNat t.mask (fun _ => BitVec.ofNat 32 bits)).writeLanes (d.toNat + 1) t.mask
        (fun _ => BitVec.ofNat 32 (bits / 2 ^ 32))).settleTags d.toNat 2 t.mask false
    | .pre => (x.writeLanes d.toNat t.mask (fun l => BitVec.ofNat 32 (popCount 64 (bits % 2 ^ (b + l))))).settleTag d.toNat t.mask false
    | .total => (x.writeLanes d.toNat t.mask (fun _ => BitVec.ofNat 32 (popCount 64 bits))).settleTag d.toNat t.mask false)) s)
/-- VBAL (R264). -/
def execVbal (g : Guard) (team : Bool) (mode : BalMode) (d a : Fld) (s : State) : Host.Outcome State Fault Refusal :=
  issue (.vbal g team mode d a) s (fun cx s =>
    if team then collective (.vbal g team mode d a) g (runVbal cx team mode d a) cx s
    else runVbal cx team mode d a (partsOf s cx g) s)

/-- VRDL (R265): the index is read in the lowest member, as a program keeps that scalar equal in all members. -/
def execVrdl (g : Guard) (d a b : Fld) (s : State) : Host.Outcome State Fault Refusal :=
  issue (.vrdl g d a b) s (fun cx s => do
    let sp := s.span cx false
    if s.anyActive cx g then
      raiseIn cBNDUSE (if s.spanB sp a then cx.packs.map (fun p => (p, a.setWidth 64)) else [])
      let idx := ((s.pack (cx.packs.headD 0)).srcs b).toNat % (16 * sp.length)
      return eachPack s cx.packs (fun _ x => x.sset (d.toNat - 384) ((s.spanLane sp .int a idx).setWidth 64))
    else return s)
/-- VWRL (R265). -/
def execVwrl (g : Guard) (d a b : Fld) (s : State) : Host.Outcome State Fault Refusal :=
  issue (.vwrl g d a b) s (fun cx s =>
    let sp := s.span cx false
    .ok (eachPack s (s.acting cx g) (fun p x =>
      let idx := (x.srcs b).toNat % (16 * sp.length)
      let base := spanBase sp p
      if base ≤ idx ∧ idx < base + 16 ∧ (s.active cx g p).getLsbD (idx - base)
      then x.vset d.toNat (idx - base) ((x.srcs a).setWidth 32) else x)))

end Sys2Proof.Machine
end

