-- ==== Sys2Proof/Machine/Access.lean ====
section
/-!
DEFINITION. Accesses of memory operations: translation of members' accesses (R402, R405), MSHRs (R85 to R87), the order
among operations of a pack (R115 to R118, R130), loads, stores, atomics and adds at the L2 (R79 to R82, R104 to R108,
R115 to R117, R366), and poison (R407).
-/
namespace Sys2Proof.Machine
open Sys2Proof

/-! ### Addresses and translation -/

/-- The accesses of a member's active lanes. -/
def laneAccs (s : State) (cx : Cx) (g : Guard) (m : MAddr) (p : Nat) : List Acc :=
  (lanesOf (s.active cx g p)).map (fun l => ⟨l, (s.pack p).ea m l⟩)
/-- BNDUSE of an index vector, then of data registers (R180, R270). -/
def bndIndex (s : State) (ps : List Nat) (m : MAddr) (data : List Nat) : M Unit :=
  raiseIn cBNDUSE (ps.filterMap (fun p =>
    if (s.pack p).indexB m then some (p, m.index.setWidth 64)
    else (data.find? (s.pack p).tagB).map (fun r => (p, BitVec.ofNat 64 r))))
/-- MISALIGN of the lowest misaligned lane of each member (R270, R371). -/
def misaligned (as : List (Nat × List Acc)) (n : Nat) : M Unit :=
  raiseIn cMISALIGN (as.filterMap (fun e =>
    (e.2.find? (fun a => a.va % n != 0)).map (fun a => (e.1, BitVec.ofNat 64 a.va))))
/-- The answer to each address of a member. -/
def answers (s : State) (k p : Nat) (as : List (Nat × Bool)) : List ((Nat × Bool) × XRes) :=
  let x := s.pack p
  as.map (fun a => (a, s.xlate (.l1 x.core) (s.launch x.launch).pasid (waiterOf p k) a.1 a.2))
/-- The pages that answers translate. -/
def pagesIn (rs : List ((Nat × Bool) × XRes)) : PMap :=
  rs.foldl (fun m r => match r.2 with
    | .ok ph => if m.any (fun e => e.1 == r.1.1 / 4096) then m else m ++ [(r.1.1 / 4096, ph / 4096)]
    | .miss => m
    | .fail => m) []
/-- The lowest address that no translation can serve. -/
def lowFail (rs : List ((Nat × Bool) × XRes)) : Option (Nat × Bool) :=
  rs.foldl (fun m r => if r.2 == .fail then (match m with
    | some q => if r.1.1 < q.1 then some r.1 else m
    | none => some r.1) else m) none
/-- The missing pages of a waiter asked for. -/
def askPages (s : State) (tc : Tc) (part pasid who : Nat) (rs : List ((Nat × Bool) × XRes)) : State :=
  (rs.filter (fun r => r.2 == .miss)).foldl (fun s r => s.wantPage tc part pasid who (r.1.1 / 4096) r.1.2) s
/-- The translations of every member's accesses: XLATE in each member with an unrecoverable page, a stall while pages are
missing, else one page map for each member (R402). -/
def probeEach (s : State) (k : Nat) (as : List (Nat × List (Nat × Bool))) : M (List (Nat × PMap)) := do
  let rs := as.map (fun e => (e.1, answers s k e.1 e.2))
  raiseIn cXLATE (rs.filterMap (fun e => (lowFail e.2).map (fun a => (e.1, xlateInfo a.1 a.2))))
  if rs.any (fun e => e.2.any (fun r => r.2 == .miss)) then
    .error (.stall (rs.foldl (fun s e =>
      let l := s.launchOf e.1
      askPages s (.l1 (s.pack e.1).core) l.part l.pasid (waiterOf e.1 k) e.2) s) .xlate)
  else .ok (rs.map (fun e => (e.1, pagesIn e.2)))
/-- The L1 TLBs filled with what members' accesses found in the L2 TLB (R394). -/
def State.fillEach (s : State) (as : List (Nat × List (Nat × Bool))) : State :=
  as.foldl (fun s e => s.fillTc (.l1 (s.pack e.1).core) (s.launchOf e.1).pasid e.2) s
/-- The page map of a member. -/
def mapOf (ms : List (Nat × PMap)) (p : Nat) : PMap :=
  match ms.find? (fun e => e.1 == p) with | some e => e.2 | none => []
/-- Whether a member has an open region. -/
def State.inRegion (s : State) (p : Nat) : Bool := (s.pack p).region.isSome
/-- The accesses of a member as an address list. -/
def asPages (as : List (Nat × List Acc)) (write : Bool) : List (Nat × List (Nat × Bool)) :=
  as.map (fun e => (e.1, e.2.map (fun a => (a.va, write))))

/-! ### The order among operations of one pack -/

/-- Whether two lists of (address, length) ranges share a byte. -/
def overlaps (a b : List (Nat × Nat)) : Bool :=
  a.any (fun x => b.any (fun y => decide (x.1 < y.1 + y.2) && decide (y.1 < x.1 + x.2)))
/-- Whether an operation's adds are an ISPL's. -/
def Op.splat (o : Op) : Bool := match o.body with | .adds _ _ sp _ => sp | _ => false
/-- Whether an operation is a load that its pack's older stores forward to (R115). -/
def Op.takesForward (o : Op) : Bool :=
  match o.body with
  | .load _ _ _ _ _ _ => true | .grid _ _ _ _ _ => true | .gdld _ _ _ _ => true | .hfind _ _ _ => true | .nbr _ _ _ => true
  | _ => false
/-- Whether an operation stores bytes. -/
def Op.isStore (o : Op) : Bool := match o.body with | .store _ _ => true | .post _ => true | _ => false
/-- Whether an operation's body is adds. -/
def Op.isAdds (o : Op) : Bool := match o.body with | .adds _ _ _ _ => true | _ => false
/-- Whether an operation is of free adds, whose order among contending adds is not defined (R104). -/
def Op.freeAdds (o : Op) : Bool := match o.body with | .adds us held _ _ => !held && us.all (fun u => u.op == .add) | _ => false
/-- The packs an operation acts for: its own, and the members of the ganged team whose one operation it is. -/
def State.membersOf (s : State) (me : Op) : List Nat :=
  me.pack.toList ++ (match me.body with | .hframe _ _ ps _ _ _ => ps | .gdld _ _ _ ps => ps | _ => []) ++
    s.ops.filterMap (fun o => match o.body with | .mate m => if m == me.id then o.pack else none | _ => none)
/-- Whether `o` precedes `me` in a pack it acts for, or in the instruction of a ganged team, and is not performed. -/
def State.before (s : State) (o me : Op) : Bool :=
  decide (o.id < me.id) && !o.done && ((match o.pack with | some p => (s.membersOf me).contains p | none => false) || o.grp == me.grp)
/-- The virtual ranges of a store that a region buffers (R405). -/
def Op.vas (o : Op) : List (Nat × Nat) := o.vbytes.map (fun b => (b.1, 1))
/-- Whether an older store that a region still buffers, of a pack that `me` acts for, shares a byte with virtual ranges (R125, R130,
R405). -/
def heldStore (s : State) (me : Op) (vr : List (Nat × Nat)) : Bool := s.ops.any (fun o => s.before o me && overlaps o.vas vr)
/-- Whether an operation is an engine's, which completes without a port, its cause recorded (R426; DEDUCED, log 123). -/
def Op.engine (o : Op) : Bool :=
  match o.body with
  | .copy _ => true | .mlda _ _ _ _ _ => true | .msta _ _ _ _ _ => true | .wbld _ _ _ => true | .tbind _ _ _ => true | .xprog _ _ _ _ _ _ => true
  | _ => false
/-- What an operation's access to peer memory waits for: a port, and requests that a failed port has sent back: an earlier one on the
port that now serves its own page where it is one of them, any one to its page where it came later (R426; DESIGN CHOICE,
log 122). -/
def linkHeld (s : State) (me : Op) (foot : List (Nat × Nat)) : Bool :=
  let back := s.relayed
  let mine := back.filter (fun e => e.op == me.id && touches foot e.page)
  (!me.engine && me.links.any (fun l => touches foot l.1 && (s.portOf l.2 l.1).isNone)) ||
  back.any (fun e => e.op != me.id &&
    ((touches foot e.page && !mine.any (fun m => m.page == e.page)) ||
     (decide (e.op < me.id) && mine.any (fun m => s.portOf m.win m.page == s.portOf e.win e.page))))
/-- Whether an engine's operation meets, at a key, a peer window that no port serves (R426). -/
def State.cutOff (s : State) (o : Op) (ph : Nat) : Bool := isPeer ph && o.links.any (fun l => l.1 == ph / 4096 && (s.portOf l.2 l.1).isNone)
/-- Whether an older operation of the packs `me` acts for must be performed before it acts on `foot` (R115, R117, R118, R129, R130
with note 4): what shares a byte with it, narrow loads of one word included (DESIGN CHOICE, log 126), but for stores that forward to a
load of their own pack, and splats; adds keep their order on each line, except that the free adds of the members of one instruction have none (R104); or the links hold it (R426). -/
def heldBack (s : State) (me : Op) (foot : List (Nat × Nat)) : Bool :=
  let lines := foot.map (fun r => (lineOf r.1 * 128, 128))
  s.ops.any (fun o => s.before o me &&
    (if o.isStore && me.takesForward && o.pack == me.pack then false
     else if o.grp == me.grp && o.freeAdds then false
     else if o.splat then me.splat && overlaps o.foot lines
     else if o.isAdds && me.isAdds then overlaps o.foot lines
     else overlaps o.foot foot)) || linkHeld s me foot
/-- In a `.det` launch an operation acts only when every older synchronising operation of the launch has been performed
(R362, R363). -/
def awaitsDet (s : State) (me : Op) : Bool :=
  (s.launch me.launch).det && s.ops.any (fun o => decide (o.id < me.id) && o.launch == me.launch && o.unsynced)
/-- Whether a line of a footprint is closed (R126). -/
def anyClosed (s : State) (foot : List (Nat × Nat)) : Bool := foot.any (fun r => !isBus r.1 && closed s (lineOf r.1))

/-! ### MSHRs -/

/-- The rejected loads that still wait in their slots: an entry goes whose slot a trap, a rotation or a restart has given another path, or
whose pack has ended (R86, R87). -/
def stillRejected (s : State) : State :=
  let waits := fun (w : Stall) => match w with | .mshr => true | .xlate => true | .interlock => true | .full => true | _ => false
  { s with mshr := { s.mshr with rejected := s.mshr.rejected.filter (fun e => !(s.pack e.pack).retired &&
      (match ((s.pack e.pack).slot e.slot).stall with | some w => waits w | none => false)) } }
/-- A core's MSHRs are held no longer than a rejected load is left that has waited 4,096 clocks (R87). -/
def stillHeld (s : State) : State :=
  { s with mshr := { s.mshr with held := s.mshr.held.filter (fun c =>
      c == 256 || s.mshr.rejected.any (fun e => (s.pack e.pack).core == c && decide (e.since + 4096 ≤ s.clk.toNat))) } }

/-- MSHRs that a footprint needs, at most all 128 (R85). -/
def mshrNeed (s : State) (core : Nat) (foot : List (Nat × Nat)) : Nat :=
  let ws := mshrWaits s core
  min 128 ((missLines s core foot).countP (fun l => ws.count l % 16 == 0))
/-- The free MSHRs of a core (R85). -/
def mshrFree (s : State) (core : Nat) : Nat := 128 - mshrUsed (mshrWaits s core)
/-- Whether an instruction that needs `need` MSHRs of a core gets them before the rejected loads `older`: none of them could take them
now, and none has waited 4,096 clocks (R87). -/
def mshrFits (s : State) (core need : Nat) (older : List Reject) : Bool :=
  let free := mshrFree s core
  let mine := older.filter (fun e => (s.pack e.pack).core == core && ((s.pack e.pack).slot e.slot).stall == some .mshr)
  let aged := s.mshr.held.contains core || mine.any (fun e => decide (e.since + 4096 ≤ s.clk.toNat))
  need == 0 || (decide (need ≤ free) && !mine.any (fun e => aged || decide (mshrNeed s core e.foot ≤ free)))
/-- The MSHRs of a load taken at once, or the load rejected whole and served by age, by what each rejected load needs now (R86,
R87). -/
def takeMshrs (s : State) (p k : Nat) (foot : List (Nat × Nat)) : M State :=
  let core := (s.pack p).core
  let s := stillRejected s
  let mine := fun (e : Reject) => e.pack == p && e.slot == k
  if mshrFits s core (mshrNeed s core foot) (s.mshr.rejected.takeWhile (fun e => !mine e)) then
    .ok { s with mshr := { s.mshr with
      rejected := s.mshr.rejected.filter (fun e => !mine e),
      held := if s.mshr.rejected.any mine then s.mshr.held.filter (· != core) else s.mshr.held } }
  else
    let s' := if s.mshr.rejected.any mine then s
      else { s with mshr := { s.mshr with rejected := s.mshr.rejected ++ [⟨p, k, s.clk.toNat, foot⟩] } }
    .error (.stall s' .mshr)

/-! ### Poison -/

/-- The canonical FP32 NaN (R407). -/
def nanBits : W32 := 0x7FC00000
/-- One MEMERR pending for the lanes of an access that read poison, the line of the first in PINFO (R407). -/
def memErr (s : State) (p : Nat) (bad : List (Nat × Nat)) : State :=
  match bad with
  | [] => s
  | b :: _ => s.modPack p (fun x => { x with pending := x.pending ++
      [{ cause := cMEMERR, info := BitVec.ofNat 64 (b.2 / 128 * 128), lanes := maskOf (bad.map (·.1)) }] })

/-! ### Loads -/

/-- A byte that an older store of the load's own pack forwards (R115). -/
def forwarded (s : State) (me : Op) (ph : Nat) : Option (BitVec 8) :=
  let newest := fun (bs : List (Nat × BitVec 8)) (r : Option (BitVec 8)) =>
    match (bs.filter (fun b => b.1 == ph)).getLast? with | some b => some b.2 | none => r
  s.ops.foldl (fun r o => if s.before o me && o.pack == me.pack then (match o.body with
      | .store bs _ => newest bs r
      | .post bs => newest bs r
      | _ => r) else r) none
/-- The byte the load's own pack holds back for it: what its open region buffered when it issued, else forwarded (R115, R405). -/
def ownByte (s : State) (me : Op) (va ph : Nat) : Option (BitVec 8) :=
  match me.fwd.find? (fun b => b.1 == va) with
  | some b => some b.2
  | none => forwarded s me ph
/-- A byte of a load: its own pack's, else the L1's copy, else the L2's (R118); outside memory where it is. -/
def loadByte (s : State) (me : Op) (core : Nat) (atL2 : Bool) (va ph : Nat) : BitVec 8 :=
  match ownByte s me va ph with
  | some b => b
  | none =>
    if isBus ph then ramRead s ph
    else (if atL2 then l2Get s (ph / 4) else coreWord s core (ph / 4)).extractLsb' (8 * (ph % 4)) 8
/-- Whether a byte of a load is read from a poisoned word. -/
def loadPoison (s : State) (me : Op) (core : Nat) (atL2 : Bool) (va ph : Nat) : Bool :=
  poisoned s ph && (ownByte s me va ph).isNone && (atL2 || (mapGet s.mem.l1 (l1Key core (ph / 4))).isNone)
/-- One 4-byte part (or a narrower whole) of a lane's access: its value, the canonical NaN where poison is read. -/
def loadPart (s : State) (me : Op) (core : Nat) (atL2 : Bool) (va ph n : Nat) : W32 × Bool :=
  let bad := (List.range n).any (fun i => loadPoison s me core atL2 (va + i) (ph + i))
  (if bad then nanBits else BitVec.ofNat 32 (ofBytes ((List.range n).map (fun i => loadByte s me core atL2 (va + i) (ph + i)))), bad)
/-- The parts of a lane's access. -/
def loadParts (s : State) (me : Op) (core : Nat) (atL2 : Bool) (va ph n : Nat) : List (W32 × Bool) :=
  if n ≤ 4 then [loadPart s me core atL2 va ph n]
  else (List.range (n / 4)).map (fun i => loadPart s me core atL2 (va + 4 * i) (ph + 4 * i) 4)
/-- Whether an L1 holds every word of a footprint. -/
def l1Holds (s : State) (core : Nat) (foot : List (Nat × Nat)) : Bool := (missLines s core foot).isEmpty
/-- The lines of a footprint filled: the invalid words of the line in the L2 from DRAM, and in the L1 from the L2 where the
policy allocates there; poisoned and outside words are not filled (R82, R83, R133). -/
def fillLines (s : State) (core : Nat) (inL1 : Bool) (lines : List Nat) : State :=
  lines.foldl (fun s l =>
    let ws := (List.range 32).filterMap (fun i => let w := 32 * l + i
      if isBus (4 * w) || (mapGet s.mem.poison w).isSome then none else some w)
    fillL1 (ws.foldl l2Fill s) core inL1 ws) s
/-- Lines leave the caches when others take their place: entry 2·line an L2 line, 2·line + 1 a line of the core's L1 (R79,
R82). -/
def evictSome (s : State) (core : Nat) (es : List Nat) : State :=
  es.foldl (fun s e =>
    if e % 2 = 0 then evictLines s [e / 2]
    else (List.range 32).foldl (fun s i => dropL1Core s core (32 * (e / 2) + i)) s) s
/-- The lines of a footprint in device memory. -/
def linesOf (foot : List (Nat × Nat)) : List Nat :=
  ((foot.flatMap wordsOf).filterMap (fun w => if isBus (4 * w) then none else some (w / 32))).eraseDups
/-- PLACE of R270: a lane's parts into its registers, the canonical NaN for a part that read poison (R407). -/
def Pack.place (x : Pack) (d n : Nat) (sx : Bool) (l : Nat) (ws : List (W32 × Bool)) : Pack :=
  if n < 4 then
    let w := nth (0, false) ws 0
    x.vset d l (if w.2 then nanBits else if sx then BitVec.ofInt 32 (tval (if n = 1 then .i8 else .i16) w.1.toNat) else w.1)
  else ws.zipIdx.foldl (fun x e => x.vset (d + e.2) l (if e.1.2 then nanBits else e.1.1)) x

/-! ### Stores -/

/-- The bytes of a store of a member's lanes, in ascending lane order (R269, R270). -/
def storeBytes (x : Pack) (r n : Nat) (accs : List Acc) : List (Nat × BitVec 8) :=
  accs.flatMap (fun a => (List.range n).map (fun i =>
    (a.va + i, (x.vget (r + i / 4) a.lane).extractLsb' (8 * (i % 4)) 8)))
/-- Bytes merged into the lines of a region store buffer (R405). -/
def bufferBytes (ls : List RLine) (bs : List (Nat × BitVec 8)) : List RLine :=
  bs.foldl (fun ls b =>
    let a := b.1 / 64 * 64
    if ls.any (fun n => n.addr == a) then ls.map (fun n => if n.addr == a then { n with bytes := mapPut n.bytes (b.1 % 64) b.2 } else n)
    else ls ++ [⟨a, [(b.1 % 64, b.2)]⟩]) ls
/-- Whether a policy allocates in the L1 (R83). -/
def allocL1 (p : Policy) : Bool := match p with | .dflt => true | .glb => false | .evf => true | .nt => false
/-- The stores of the members: held in the region store buffer where a region is open, else issued with their pages
translated (R270, R271, R405). -/
def storeAll (cx : Cx) (s : State) (items : List (Nat × List (Nat × BitVec 8))) (alloc : Bool) : M State := do
  let k := cx.slot
  let open' := items.filter (fun e => s.inRegion e.1)
  let free := items.filter (fun e => !s.inRegion e.1)
  let pages := free.map (fun e => (e.1, e.2.map (fun b => (b.1, true))))
  let ms ← probeEach s k pages
  let after := fun (e : Nat × List (Nat × BitVec 8)) => show List RLine from
    match (s.pack e.1).region with | some r => bufferBytes r.lines e.2 | none => []
  raiseIn cREGIONFULL ((open'.filter (fun e => decide (32 < (after e).length))).map (fun e => (e.1, 0)))
  let grp := s.nextOp
  return items.foldl (fun s e =>
    if s.inRegion e.1 then
      addOp (s.modPack e.1 (fun x => { x with region := x.region.map (fun r => { r with lines := bufferBytes r.lines e.2 }) }))
        cx grp e.1 .st [] [] [] (.store [] alloc) e.2
    else
      let m := mapOf ms e.1
      addOp s cx grp e.1 .st m [] [] (.store (e.2.map (fun b => (m.get b.1, b.2))) alloc)) (s.fillEach pages)

/-! ### Atomics -/

/-- NEW of R273. -/
def atomNew (op : AtomOp) (n : Nat) (old v : Nat) : Nat :=
  let w := 8 * n
  let sg := fun (x : Nat) => (BitVec.ofNat w x).toInt
  match op with
  | .add => (old + v) % 2 ^ w
  | .and => old &&& v
  | .or => old ||| v
  | .xor => old ^^^ v
  | .exch => v
  | .smin => if sg old ≤ sg v then old else v
  | .smax => if sg old ≤ sg v then v else old
  | .nmin => min old v
  | .nmax => max old v
/-- What an atomic lane writes back: the new value of ATOM, or of ACAS where the compare value is found (R273, R274). -/
def atomWrite (op : Option AtomOp) (n old v cmp : Nat) : Option Nat :=
  match op with
  | some f => some (atomNew f n old v)
  | none => if old = cmp then some v else none
/-- Registers of a lane's operand: `n` bytes from V`r`. -/
def Pack.vnat (x : Pack) (r n l : Nat) : Nat :=
  (x.vget r l).toNat + (if n = 8 then 2 ^ 32 * (x.vget (r + 1) l).toNat else 0)
/-- Ownership of words revoked, and a core's L1 copies dropped (R116). -/
def revoke (s : State) (core : Nat) (ws : List Nat) : State :=
  ws.foldl (fun s w => setOwner (dropL1Core s core w) w none) s
/-- A read-modify-write of `n` bytes at the L2, or where outside memory is: the window closed, ownership revoked; gives
the state, the old value and whether poison was read (R106, R116, R117, R407). -/
def atomAt (s : State) (core : Nat) (op : Option AtomOp) (ph n v cmp : Nat) : State × Nat × Bool :=
  let s := if isBus ph then s else closeWindow s (lineOf ph)
  let bad := poisoned s ph || poisoned s (ph + n - 1)
  let old := memNat s ph n
  match atomWrite op n old v cmp with
  | none => (if isBus ph then s else revoke s core (wordsOf (ph, n)), old, bad)
  | some new =>
    if isBus ph then (ramWrites s ph (leBytes new n), old, false)
    else
      let s := registerBytes s none false ((leBytes new n).zipIdx.map (fun e => (ph + e.2, e.1)))
      (revoke s core (wordsOf (ph, n)), old, bad)
/-- A lane's old value written into its registers: `n` bytes from V`d`, tag E where every present lane is written. -/
def atomResult (s : State) (p d n lane old : Nat) (bad : Bool) : State :=
  s.modPack p (fun x =>
    let x := x.vset d lane (if bad then nanBits else BitVec.ofNat 32 old)
    if n = 8 then x.vset (d + 1) lane (if bad then nanBits else BitVec.ofNat 32 (old / 2 ^ 32)) else x)

/-! ### Adds -/

/-- A record of kind DETINTRUDE to ring 0, and the count of the adding launch's partition (R366). -/
def intrusion (s : State) (launch line : Nat) : State :=
  let l := s.launch launch
  let s := s.modPart l.part (fun q => { q with intrude := if q.intrude = 0xFFFFFFFF then q.intrude else q.intrude + 1 })
  produce s 0 (mkRecord l.tag (BitVec.ofNat 64 (128 * line)) 7 4 l.queue)
/-- Whether an add intrudes into an open window, which is counted and reported (R366): also a held add of one .det launch into another
.det launch's window (DEDUCED, log 121). -/
def intrudes (s : State) (launch : Nat) (held : Bool) (u : AddU) : Bool :=
  let det := (s.launch launch).det
  match mapGet s.mem.windows (lineOf u.ph) with
  | none => false
  | some w => !(held && w.launch == launch) && ((w.det && !det && u.op == .add) || (held && det))
/-- A held add into its line's window: the 17th add applies the batch before it (R106). -/
def Window.push (s : State) (line : Nat) (w : Window) (u : AddU) : State :=
  let full := decide (16 ≤ w.batch.length)
  let s := if full then applyBatch s w.batch else s
  { s with mem := { s.mem with windows := mapPut s.mem.windows line { w with batch := (if full then [] else w.batch) ++ [u] } } }
/-- An add or minimum or maximum of a launch reaches its line's update unit (R104 to R106, R116, R275, R366). -/
def addArrive (s : State) (launch core : Nat) (held : Bool) (u : AddU) : State :=
  let line := lineOf u.ph
  let det := (s.launch launch).det
  let fresh := fun (s : State) =>
    if held then Window.push s line ⟨launch, det, [], []⟩ u else applyAdd s u
  let s := match mapGet s.mem.windows line with
    | none => fresh s
    | some w =>
      if held && w.launch == launch then Window.push s line w u
      else if w.det && !det && u.op == .add then
        intrusion { s with mem := { s.mem with windows := mapPut s.mem.windows line { w with intr := w.intr ++ [u] } } } launch line
      else
        let s := if held && det then intrusion s launch line else s
        fresh (closeWindow s line)
  revoke s core (wordsOf (u.ph, u.fmt.bytes))

end Sys2Proof.Machine
end

