-- ==== Sys2Proof/Machine/Memory.lean ====
section
/-!
DEFINITION. Loads, stores, scratchpad accesses, atomics, acquire and release, cache maintenance and prefetch (R88 to R92,
R228, R266 to R278).
-/
namespace Sys2Proof.Machine
open Sys2Proof

/-- The checks of an address at or above 2^57 in members whose region is open, where nothing waits for translation (R206,
R405). -/
def eaRange (s : State) (as : List (Nat × List Acc)) (write : Bool) : M Unit :=
  raiseIn cXLATE ((as.filter (fun e => s.inRegion e.1)).filterMap (fun e =>
    (lowFail ((e.2.filter (fun a => decide (2 ^ 57 ≤ a.va))).map (fun a => ((a.va, write), .fail)))).map (fun a => (e.1, xlateInfo a.1 a.2))))

/-- Loads of members issued: checked, translated (in an open region without waiting), their MSHRs taken, for a line without a translation
too (R85, R270, R402, R405). -/
def loadAll (cx : Cx) (s : State) (as : List (Nat × List Acc)) (n : Nat) (dv ds : List Nat) (body : List Acc → Body) : M State := do
  misaligned as n
  eaRange s as false
  let pages := asPages as false
  let ms ← probeEach s cx.slot (pages.filter (fun e => !s.inRegion e.1))
  let s := s.fillEach pages
  let all := ms ++ (pages.filter (fun e => s.inRegion e.1)).map (fun e => (e.1, pagesIn (answers s cx.slot e.1 e.2)))
  let s ← takeMshrs s (cx.packs.headD 0) cx.slot (as.flatMap (fun e => e.2.map (fun a =>
    (((mapOf all e.1).at a.va).getD (looseKey (s.launchOf e.1).pasid a.va), n))))
  let grp := s.nextOp
  return as.foldl (fun s e =>
    let l := s.launchOf e.1
    let who := opWaiter s.nextOp
    let rs := answers s cx.slot e.1 (e.2.map (fun a => (a.va, false)))
    let s := addOp s cx grp e.1 .ld (mapOf all e.1) dv ds (body e.2)
    if s.inRegion e.1 then askPages s (.l1 (s.pack e.1).core) l.part l.pasid who rs else s) s

/-- LD (R270). -/
def execLd (g : Guard) (sx : Bool) (wd : Width) (pol : Policy) (d : Fld) (m : MAddr) (s : State) : Host.Outcome State Fault Refusal :=
  issue (.ld g sx wd pol d m) s (fun cx s => do
    let ps := s.acting cx g
    if ps.isEmpty then return s
    awaitCount s cx ps .ld
    bndIndex s ps m []
    loadAll cx s (ps.map (fun p => (p, laneAccs s cx g m p))) wd.bytes ((List.range wd.regs).map (d.toNat + ·)) []
      (fun accs => .load accs wd.bytes d.toNat sx false pol))

/-- ST (R270, R271). -/
def execSt (g : Guard) (bt : Bool) (wd : Width) (pol : Policy) (d : Fld) (m : MAddr) (s : State) : Host.Outcome State Fault Refusal :=
  issue (.st g bt wd pol d m) s (fun cx s => do
    let ps := s.acting cx g
    if ps.isEmpty then return s
    awaitCount s cx ps .st
    bndIndex s ps m (if bt then [] else (List.range wd.regs).map (d.toNat + ·))
    let as := ps.map (fun p => (p, laneAccs s cx g m p))
    misaligned as wd.bytes
    eaRange s as true
    storeAll cx s (as.map (fun e => (e.1, storeBytes (s.pack e.1) d.toNat wd.bytes e.2))) (allocL1 pol && decide (4 ≤ wd.bytes)))

/-- The uniform access of a member: the lowest lane of its path, and the address (R228). -/
def oneAcc (s : State) (cx : Cx) (m : MAddr) (p : Nat) : List Acc :=
  [⟨lowLane (s.path p cx.slot).mask, (s.pack p).ea m 0⟩]
/-- SLD (R228). -/
def execSld (g : Guard) (sx : Bool) (wd : Width) (pol : Policy) (d : Fld) (m : MAddr) (s : State) : Host.Outcome State Fault Refusal :=
  issue (.sld g sx wd pol d m) s (fun cx s => do
    let ps := cx.packs.filter (s.ucond cx g)
    if ps.isEmpty then return s
    awaitCount s cx ps .ld
    loadAll cx s (ps.map (fun p => (p, oneAcc s cx m p))) wd.bytes [] [d.toNat - 384]
      (fun accs => .load accs wd.bytes (d.toNat - 384) sx true pol))
/-- SST (R228, R271). -/
def execSst (g : Guard) (wd : Width) (pol : Policy) (d : Fld) (m : MAddr) (s : State) : Host.Outcome State Fault Refusal :=
  issue (.sst g wd pol d m) s (fun cx s => do
    let ps := cx.packs.filter (s.ucond cx g)
    if ps.isEmpty then return s
    awaitCount s cx ps .st
    let as := ps.map (fun p => (p, oneAcc s cx m p))
    misaligned as wd.bytes
    eaRange s as true
    storeAll cx s (as.map (fun e => (e.1, e.2.flatMap (fun a =>
      (leBytes ((s.pack e.1).srcs d).toNat wd.bytes).zipIdx.map (fun b => (a.va + b.2, b.1)))))) (allocL1 pol && decide (4 ≤ wd.bytes)))

/-! ### Scratchpad -/

/-- MISALIGN, then SCRATCHRANGE of the lowest byte at or beyond the reachable size, in each member (R73, R371). -/
def scratchCheck (s : State) (as : List (Nat × List Acc)) (n : Nat) : M Unit := do
  misaligned as n
  raiseIn cSCRATCH (as.filterMap (fun e =>
    let top := (s.launchOf e.1).sRound
    (e.2.foldl (fun r a => if top < a.va + n then some (match r with | some b => min b (max a.va top) | none => max a.va top) else r)
      (none : Option Nat)).map (fun b => (e.1, BitVec.ofNat 64 b))))
/-- LDS (R73, R272); a word that a copy left poisoned reads as R407 gives. -/
def execLds (g : Guard) (wd : Width) (d : Fld) (m : MAddr) (s : State) : Host.Outcome State Fault Refusal :=
  issue (.lds g wd d m) s (fun cx s => do
    let ps := s.acting cx g
    bndIndex s ps m []
    let as := ps.map (fun p => (p, laneAccs s cx g m p))
    scratchCheck s as wd.bytes
    return as.foldl (fun t e =>
      let x := s.pack e.1
      let b := s.block x.block
      let bad := fun (off : Nat) => (mapGet b.spoison (scrKey (s.coreIx x) off / 4)).isSome
      let t := t.modPack e.1 (fun x =>
        let x := e.2.foldl (fun x a => x.place d.toNat wd.bytes false a.lane ((List.range wd.regs).map (fun i =>
          (BitVec.ofNat 32 (scrNat b (s.coreIx x) (a.va + 4 * i) 4), bad (a.va + 4 * i))))) x
        x.settleTags d.toNat wd.regs (s.active cx g e.1) false)
      memErr t e.1 ((e.2.filter (fun a => (List.range wd.regs).any (fun i => bad (a.va + 4 * i)))).map (fun a => (a.lane, a.va)))) s)
/-- STS (R73, R272). -/
def execSts (g : Guard) (bt : Bool) (wd : Width) (d : Fld) (m : MAddr) (s : State) : Host.Outcome State Fault Refusal :=
  issue (.sts g bt wd d m) s (fun cx s => do
    let ps := s.acting cx g
    bndIndex s ps m (if bt then [] else (List.range wd.regs).map (d.toNat + ·))
    let as := ps.map (fun p => (p, laneAccs s cx g m p))
    scratchCheck s as wd.bytes
    return as.foldl (fun t e =>
      let x := s.pack e.1
      t.modBlock x.block (fun b => (storeBytes x d.toNat wd.bytes e.2).foldl (fun b v =>
        scrWrite { b with spoison := mapDel b.spoison (scrKey (s.coreIx x) v.1 / 4) } (s.coreIx x) v.1 v.2) b)) s)

/-! ### Atomics -/

/-- XLATE of the lowest host address of a member that an atomic cannot serve (R134). -/
def hostAtomic (ok : Bool) (as : List (Nat × List Acc)) (ms : List (Nat × PMap)) : M Unit :=
  raiseIn cXLATE (as.filterMap (fun e =>
    (lowFail ((e.2.filter (fun a => isHost ((mapOf ms e.1).get a.va))).map (fun a => ((a.va, true), if ok then .ok 0 else .fail)))).map
      (fun a => (e.1, xlateInfo a.1 a.2))))
/-- ATOM and ACAS: the region ended, checks, translation for writing, the turn in a `.det` launch; one operation for each
member (R134, R268, R271, R273, R274, R362). -/
def atomAll (cx : Cx) (g : Guard) (op : Option AtomOp) (n d : Nat) (regs dv : List Nat) (m : MAddr)
    (lane : Pack → Acc → AtomLane) (s : State) : M State := do
  let ps := s.acting cx g
  if ps.isEmpty then return s
  let s ← endRegions s cx.slot ps
  awaitCount s cx ps .ld
  bndIndex s ps m regs
  let as := ps.map (fun p => (p, laneAccs s cx g m p))
  misaligned as n
  let ms ← probeEach s cx.slot (asPages as true)
  let s := s.fillEach (asPages as true)
  hostAtomic (s.dev.atomicEn && (op == some .add || op == some .exch || op == none)) as ms
  awaitTurn s (cx.packs.headD 0)
  let grp := s.nextOp
  return as.foldl (fun s e =>
    let mp := mapOf ms e.1
    let x := s.pack e.1
    let out := (e.2.filter (fun a => isHost (mp.get a.va))).map (fun a => Sent.atomicOp a.va n)
    let t := addOp s cx grp e.1 .ld mp dv [] (.atom op n d (e.2.map (lane x)))
    { t with sent := t.sent ++ out }.modPack e.1 (fun x => x.settleTags d (dv.length) (s.active cx g e.1) false)) s
/-- ATOM (R273). -/
def execAtom (g : Guard) (op : AtomOp) (wd : Width) (d : Fld) (m : MAddr) (s : State) : Host.Outcome State Fault Refusal :=
  issue (.atom g op wd d m) s (fun cx s =>
    let regs := (List.range wd.regs).map (d.toNat + ·)
    atomAll cx g (some op) wd.bytes d.toNat regs regs m (fun x a =>
      ⟨a.lane, a.va, BitVec.ofNat 64 (x.vnat d.toNat wd.bytes a.lane), 0⟩) s)
/-- ACAS (R274). -/
def execAcas (g : Guard) (wd : Width) (d : Fld) (m : MAddr) (s : State) : Host.Outcome State Fault Refusal :=
  issue (.acas g wd d m) s (fun cx s =>
    let n := wd.regs
    atomAll cx g none wd.bytes d.toNat ((List.range (2 * n)).map (d.toNat + ·)) ((List.range n).map (d.toNat + ·)) m (fun x a =>
      ⟨a.lane, a.va, BitVec.ofNat 64 (x.vnat (d.toNat + n) wd.bytes a.lane), BitVec.ofNat 64 (x.vnat d.toNat wd.bytes a.lane)⟩) s)

/-- The element format of a FATOM format. -/
def fatFmt (f : FatFmt) : EFmt := match f with | .f32 => .f32 | .bf16 => .bf16 | .f16 => .f16
/-- FATOM: adds with key (g, 0, 0), held in a `.det` launch (R134, R275). -/
def execFatom (g : Guard) (op : FatOp) (fmt : FatFmt) (d : Fld) (m : MAddr) (s : State) : Host.Outcome State Fault Refusal :=
  issue (.fatom g op fmt d m) s (fun cx s => do
    let ps := s.acting cx g
    if ps.isEmpty then return s
    let s ← endRegions s cx.slot ps
    awaitCount s cx ps .st
    bndIndex s ps m [d.toNat]
    let as := ps.map (fun p => (p, laneAccs s cx g m p))
    let f := fatFmt fmt
    misaligned as f.bytes
    let ms ← probeEach s cx.slot (asPages as true)
    let s := s.fillEach (asPages as true)
    hostAtomic false as ms
    awaitTurn s (cx.packs.headD 0)
    let grp := s.nextOp
    return as.foldl (fun s e =>
      let mp := mapOf ms e.1
      let x := s.pack e.1
      let us := e.2.map (fun a => (⟨s.gIndex x a.lane, 0, 0, mp.get a.va, f, op,
        if f = .f32 then x.vget d.toNat a.lane else rne32 (f.ff.read ((x.vget d.toNat a.lane).toNat % 65536))⟩ : AddU))
      addOp s cx grp e.1 .st mp [] [] (.adds us ((s.launchOf e.1).det && op == .add) false [])) s)

/-! ### Acquire and release -/

/-- ACQ (R120, R276). -/
def execAcq (g : Guard) (s : State) : Host.Outcome State Fault Refusal :=
  issue (.acq g) s (fun cx s => do
    let ps := cx.packs.filter (s.ucond cx g)
    waitIf (ps.any (fun p => s.ops.any (fun o => o.pack == some p && !o.done && o.k == some .ld))) s .rel
    return ps.foldl (fun s p => acquireCore s (s.pack p).core) s)
/-- REL (R121, R271, R276). -/
def execRel (g : Guard) (s : State) : Host.Outcome State Fault Refusal :=
  issue (.rel g) s (fun cx s => do
    let ps := cx.packs.filter (s.ucond cx g)
    let s ← endRegions s cx.slot ps
    waitIf (ps.any (relBusy s)) s .rel
    return s)

/-! ### Cache maintenance and prefetch -/

/-- An operation that completes at issue: counted, its decrement behind older ones (R114). -/
def addDone (s : State) (cx : Cx) (p : Nat) (k : KCls) (body : Body) : State :=
  let id := s.nextOp
  completeOp (addOp s cx id p k [] [] [] body) id
/-- CMO over each member's lines: the region ended; an operation that asks for the translations it lacks without waiting
(R88 to R90, R271, R402). -/
def cmoAll (cx : Cx) (g : Guard) (form : CmoForm) (lvl : CmoLevel) (align : Nat) (m : MAddr) (lines : Nat → Pack → List Nat)
    (s : State) : M State := do
  let ps := cx.packs.filter (s.ucond cx g)
  if ps.isEmpty then return s
  let s ← endRegions s cx.slot ps
  awaitCount s cx ps .st
  misaligned (ps.map (fun p => (p, oneAcc s cx m p))) align
  return ps.foldl (fun s p =>
    let x := s.pack p
    let l := s.launchOf p
    let ls := (lines (x.ea m 0) x).filter (fun a => decide (a < 2 ^ 57))
    if ls.isEmpty then addDone s cx p .st (.cmo form lvl [])
    else
      let who := opWaiter s.nextOp
      let rs := answers s cx.slot p (((ls.map (· / 4096)).eraseDups).map (fun a => (4096 * a, false)))
      askPages (addOp s cx s.nextOp p .st (pagesIn rs) [] [] (.cmo form lvl ls)) (.l1 x.core) l.part l.pasid who rs) s
/-- The lines that overlap [a, a + n), stopping at 2^64 (R89). -/
def rangeLines (a n : Nat) : List Nat :=
  let e := min (a + n) (2 ^ 64)
  if e ≤ a then [] else (List.range ((e - 1) / 128 - a / 128 + 1)).map (fun i => 128 * (a / 128 + i))
/-- CMO over a range (R88, R89, R277). -/
def execCmo (g : Guard) (form : CmoForm) (lvl : CmoLevel) (d : Fld) (m : MAddr) (s : State) : Host.Outcome State Fault Refusal :=
  issue (.cmo g form lvl d m) s (cmoAll · g form lvl 1 m (fun a x => rangeLines a (x.srcs d).toNat) ·)
/-- CMO.BMP (R90, R277). -/
def execCmoBmp (g : Guard) (lvl : CmoLevel) (d : Fld) (m : MAddr) (s : State) : Host.Outcome State Fault Refusal :=
  issue (.cmoBmp g lvl d m) s (cmoAll · g .inval lvl 128 m (fun a x =>
    ((List.range 64).filter (fun j => (x.srcs d).getLsbD j)).filterMap (fun j =>
      if a + 128 * j < 2 ^ 64 then some (a + 128 * j) else none)) ·)

/-- The line of a prefetch, where no rule drops it (R91, R133, R278); one of a closed line is dropped too (R126; DESIGN CHOICE, log 129). -/
def prefLine (s : State) (tc : Tc) (pasid va : Nat) : Option Nat :=
  if 2 ^ 57 ≤ va then none
  else match s.tlbFind tc pasid va false with
    | some t => (match s.target (t.tbase + (va - t.base)) with
        | .device ph => if s.affine ph || closed s (lineOf ph) then none else some (lineOf ph)
        | .peer _ _ => none | .host _ => none | .none => none)
    | none => none
/-- A line brought into a level by prefetch: it closes the line's window, and the words it brings into an L1 are not owned (R92, R106). -/
def prefetchLine (s : State) (core : Nat) (inL1 : Bool) (line : Nat) : State :=
  let s := closeWindow s line
  let mine := fun (w : Nat) => mapGet s.mem.owner w == some core && (mapGet s.mem.l1 (l1Key core w)).isNone
  let ws := if inL1 then ((List.range 32).map (32 * line + ·)).filter mine else []
  fillLines (ws.foldl (fun s w => setOwner s w none) s) core inL1 [line]
/-- An operation without a counter (R278). -/
def addQuiet (s : State) (p : Nat) (body : Body) : State :=
  let o : Op := { id := s.nextOp, grp := s.nextOp, pack := some p, launch := (s.pack p).launch, k := none, body := body }
  { s with ops := s.ops ++ [o], nextOp := s.nextOp + 1 }
/-- PREF: the lines of all members that no rule drops are asked for in one operation; a prefetch to the L1 that finds too few MSHRs, those
that a rejected load takes first not counted, is dropped whole (R86, R87, R91, R278). -/
def execPref (g : Guard) (l2 : Bool) (m : MAddr) (s : State) : Host.Outcome State Fault Refusal :=
  issue (.pref g l2 m) s (fun cx s => do
    let ps := s.acting cx g
    bndIndex s ps m []
    let p := cx.packs.headD 0
    let core := (s.pack p).core
    let ls := (ps.flatMap (fun p => (laneAccs s cx g m p).filterMap (fun a => prefLine s (.l1 core) (s.launchOf p).pasid a.va))).eraseDups
    let fits := l2 || mshrFits s core (mshrNeed s core (ls.map (fun l => (128 * l, 128)))) s.mshr.rejected
    return if ls.isEmpty || !fits then s else addQuiet s p (.pref l2 ls))

end Sys2Proof.Machine
end

