-- ==== Sys2Proof/Machine/Grid.lean ====
section
/-!
DEFINITION. The interpolating instructions (R93, R94, R279 to R285).
-/
namespace Sys2Proof.Machine
open Sys2Proof

/-- The operation that a GDLD of pack `p` for the members `ps` would be, for what it waits for and what its own pack forwards (R115). -/
def State.nextLoad (s : State) (p : Nat) (ps : List Nat) : Op :=
  { id := s.nextOp, grp := s.nextOp, pack := some p, launch := (s.pack p).launch, k := some .ld,
    fwd := (match (s.pack p).region with | some r => r.flat | none => []), body := .gdld 0 0 0 ps }
/-- `n` bytes read at issue, as a load of pack `p` reads them (R115, R118). -/
def issueRead (s : State) (p : Nat) (m : PMap) (va n : Nat) : Nat :=
  ofBytes ((List.range n).map (fun i => loadByte s (s.nextLoad p [p]) (s.pack p).core false (va + i) (m.get (va + i))))
/-- Whether a read at issue must wait: for the members' older operations on its bytes, for what other members' regions buffer, or for
a closed line (R115, R118, R126). -/
def issueWaits (s : State) (p : Nat) (ps : List Nat) (m : PMap) (va n : Nat) : Bool :=
  let foot := [(m.get va, n)]
  heldBack s (s.nextLoad p ps) foot || anyClosed s foot ||
    s.ops.any (fun o => o.pack != some p && s.before o (s.nextLoad p ps) && overlaps o.vas [(va, n)])

/-- GDLD: MISALIGN, the page, then the record's own rules, read once nothing older holds it back and its MSHR is taken; the record goes
into the slot when its data arrive (R85, R93, R94, R279). -/
def execGdld (g : Guard) (d : Fld) (m : MAddr) (s : State) : Host.Outcome State Fault Refusal :=
  issue (.gdld g d m) s (fun cx s => do
    match s.acting cx g with
    | [] => return s
    | p :: _ =>
      awaitCount s cx [p] .ld
      let x := s.pack p
      let l := s.launchOf p
      let va := x.ea m 0
      failIf (va % 64 != 0) cMISALIGN (BitVec.ofNat 64 va)
      let mp ← probe s (.l1 x.core) l.part l.pasid (waiterOf p cx.slot) [(va, false)]
      let s := s.fillTc (.l1 x.core) l.pasid [(va, false)]
      waitIf (issueWaits s p cx.packs mp va 64) s .interlock
      let s ← takeMshrs s p cx.slot [(mp.get va, 64)]
      let s := closeWindows s (linesOf [(mp.get va, 64)])
      let raw : BitVec 512 := BitVec.ofNat 512 (issueRead s p mp va 64)
      failIf (!gridLegal raw) cOPFORMAT (BitVec.ofNat 64 va)
      let bad := (List.range 64).any (fun i => loadPoison s (s.nextLoad p [p]) x.core false (va + i) (mp.get (va + i)))
      let s := memErr s p (if bad then [(lowLane (s.path p cx.slot).mask, va)] else [])
      return addOp s cx s.nextOp p .ld mp [] [] (.gdld d.toNat raw va cx.packs))

/-- The descriptor an instruction names, with the checks of R280 that need no lane: the slot valid, the layout suitable,
the derived registers allocated and not waited for (R93, R101, R114). -/
def slotOf (cx : Cx) (s : State) (b : Fld) (suits : BitVec 512 → Bool) (regs : BitVec 512 → List Nat) : M DSlot :=
  match nth none (s.blockOf (cx.packs.headD 0)).slots b.toNat with
  | none => raise cOPFORMAT 0
  | some d =>
    if !suits d.raw then raise cOPFORMAT (BitVec.ofNat 64 d.home)
    else if cx.packs.any (fun p => (regs d.raw).any (fun r => decide ((s.pack p).alloc ≤ r))) then raise cILLOP cx.at
    else if s.ops.any (fun o => !o.done && cx.packs.any (fun p => o.pack == some p) && o.dv.any (regs d.raw).contains) then
      .error (.stall s .interlock)
    else .ok d
/-- `n` registers from V`r`. -/
def regsFrom (r n : Nat) : List Nat := (List.range n).map (r + ·)
/-- The lanes of a member with their coordinates (R101). -/
def gridLanes (s : State) (cx : Cx) (g : Guard) (a n : Nat) (c : Option Nat) (p : Nat) : List GLane :=
  (lanesOf (s.active cx g p)).map (fun l =>
    ⟨l, (List.range n).map (fun i => (s.pack p).vget (a + i) l), match c with | some r => (s.pack p).vget r l | none => 0⟩)
/-- GRIDRANGE in each member: the lowest lane with a tap outside a FAULT axis (R100, R371). -/
def rangeCheck (d : BitVec 512) (ord : Nat) (as : List (Nat × List GLane)) : M Unit :=
  raiseIn cGRIDRANGE (as.filterMap (fun e => e.2.findSome? (fun l => (gridFault d ord l.x).map (fun t =>
    (e.1, BitVec.ofNat 64 (t.1 + 16 * l.lane) ||| (BitVec.ofInt 64 t.2 <<< 32))))))
/-- BNDUSE of the first B-tagged of a list of registers in each member (R101, R102, R180). -/
def bndRegs (s : State) (ps : List Nat) (rs : List Nat) : M Unit :=
  raiseIn cBNDUSE (ps.filterMap (fun p => (rs.find? (s.pack p).tagB).map (fun r => (p, BitVec.ofNat 64 r))))
/-- XLATE of the lowest address of a member that leads to host or peer memory (R127). -/
def deviceOnly (as : List (Nat × List Nat)) (ms : List (Nat × PMap)) : M Unit :=
  raiseIn cXLATE (as.filterMap (fun e =>
    (lowFail ((e.2.filter (fun a => isBus ((mapOf ms e.1).get a))).map (fun a => ((a, true), .fail)))).map
      (fun a => (e.1, xlateInfo a.1 a.2))))

/-- ILD and ILDG (R281). -/
def interpolate (g : Guard) (grad : Bool) (o : OrdSel) (d a b : Fld) (cx : Cx) (s : State) : M State := do
  let ps := s.acting cx g
  if ps.isEmpty then return s
  awaitCount s cx ps .ld
  let dst := fun (r : BitVec 512) => regsFrom d.toNat (gChan r * (if grad then gDim r + 1 else 1))
  let ds ← slotOf cx s b (fun r => gLayout r != 3) (fun r => regsFrom a.toNat (gDim r) ++ dst r)
  let r := ds.raw
  let ord := ordOf r o
  let as := ps.map (fun p => (p, gridLanes s cx g a.toNat (gDim r) none p))
  rangeCheck r ord as
  bndRegs s ps (regsFrom a.toNat (gDim r))
  let pages := as.map (fun e => (e.1, (e.2.flatMap (fun l => laneAddrs r ord l.x)).map (fun v => (v, false))))
  let ms ← probeEach s cx.slot pages
  let s ← takeMshrs (s.fillEach pages) (cx.packs.headD 0) cx.slot (as.flatMap (fun e => e.2.flatMap (fun l =>
    (laneAddrs r ord l.x).map (fun v => ((mapOf ms e.1).get v, gridSpan r)))))
  let grp := s.nextOp
  return as.foldl (fun s e => addOp s cx grp e.1 .ld (mapOf ms e.1) (dst r) [] (.grid ds ord grad e.2 d.toNat)) s
/-- ILD (R100, R281). -/
def execIld (g : Guard) (ord : OrdSel) (d a b : Fld) (s : State) : Host.Outcome State Fault Refusal :=
  issue (.ild g ord d a b) s (interpolate g false ord d a b)
/-- ILDG (R100, R281). -/
def execIldg (g : Guard) (ord : OrdSel) (d a b : Fld) (s : State) : Host.Outcome State Fault Refusal :=
  issue (.ildg g ord d a b) s (interpolate g true ord d a b)

/-- ISPL (R102, R105, R127, R282, R362). -/
def execIspl (g : Guard) (o : OrdSel) (a b c : Fld) (s : State) : Host.Outcome State Fault Refusal :=
  issue (.ispl g o a b c) s (fun cx s => do
    let ps := s.acting cx g
    if ps.isEmpty then return s
    let s ← endRegions s cx.slot ps
    awaitCount s cx ps .st
    let ds ← slotOf cx s b (fun r => gLayout r != 3 && gElem r != .l6)
      (fun r => regsFrom a.toNat (gDim r) ++ regsFrom c.toNat (gChan r))
    let r := ds.raw
    let ord := ordOf r o
    let as := ps.map (fun p => (p, gridLanes s cx g a.toNat (gDim r) none p))
    rangeCheck r ord as
    bndRegs s ps (regsFrom a.toNat (gDim r) ++ regsFrom c.toNat (gChan r))
    let addrs := as.map (fun e => (e.1, e.2.flatMap (fun l => laneAddrs r ord l.x)))
    let ms ← probeEach s cx.slot (addrs.map (fun e => (e.1, e.2.map (fun v => (v, true)))))
    let s := s.fillEach (addrs.map (fun e => (e.1, e.2.map (fun v => (v, true)))))
    deviceOnly addrs ms
    awaitTurn s (cx.packs.headD 0)
    let grp := s.nextOp
    return as.foldl (fun s e =>
      let x := s.pack e.1
      let us := e.2.flatMap (fun l => (splatLane r ord l.x (fun ch => x.vget (c.toNat + ch) l.lane)).map (fun t =>
        (⟨s.gIndex x l.lane, t.1, t.2.1, (mapOf ms e.1).get (gridAddr r t.2.2.1 t.2.1), gElem r, .add, t.2.2.2⟩ : AddU)))
      let held := gAcc r || (s.launchOf e.1).det
      if us.isEmpty then addDone s cx e.1 .st (.adds [] held true [])
      else addOp s cx grp e.1 .st (mapOf ms e.1) [] [] (.adds us held true [])) s)

/-- Addresses of every bucket that the lanes' probes can visit. -/
def probePages (r : BitVec 512) (near : Bool) (ls : List GLane) : List Nat :=
  ls.flatMap (fun l => (if near then nearCells r l.x else [cellOf r l.x]).flatMap (fun m => match m with
    | some c => probeAddrs r c
    | none => []))
/-- HINS (R110, R127, R283, R362). -/
def execHins (g : Guard) (d a b c : Fld) (s : State) : Host.Outcome State Fault Refusal :=
  issue (.hins g d a b c) s (fun cx s => do
    let ps := s.acting cx g
    if ps.isEmpty then return s
    let s ← endRegions s cx.slot ps
    awaitCount s cx ps .ld
    let ds ← slotOf cx s b (fun r => gLayout r == 3) (fun r => regsFrom a.toNat (gDim r) ++ c.toNat :: regsFrom d.toNat 2)
    let r := ds.raw
    let as := ps.map (fun p => (p, gridLanes s cx g a.toNat (gDim r) (some c.toNat) p))
    bndRegs s ps (regsFrom a.toNat (gDim r) ++ [c.toNat])
    let addrs := as.map (fun e => (e.1, ds.home :: probePages r false e.2))
    let ms ← probeEach s cx.slot (addrs.map (fun e => (e.1, e.2.map (fun v => (v, true)))))
    let s := s.fillEach (addrs.map (fun e => (e.1, e.2.map (fun v => (v, true)))))
    deviceOnly addrs ms
    awaitTurn s (cx.packs.headD 0)
    let grp := s.nextOp
    return as.foldl (fun s e => (addOp s cx grp e.1 .ld (mapOf ms e.1) (regsFrom d.toNat 2) [] (.hins ds e.2 d.toNat)).modPack e.1
      (fun x => x.settleTags d.toNat 2 (s.active cx g e.1) false)) s)

/-- HFIND and NBR, global loads that take MSHRs for the lines of every bucket they may visit (R85, R111, R284; log 25). -/
def findCells (g : Guard) (near : Bool) (d a b : Fld) (cx : Cx) (s : State) : M State := do
  let ps := s.acting cx g
  if ps.isEmpty then return s
  awaitCount s cx ps .ld
  let dst := fun (r : BitVec 512) => regsFrom d.toNat (if near then 3 ^ gDim r else 2)
  let ds ← slotOf cx s b (fun r => gLayout r == 3) (fun r => regsFrom a.toNat (gDim r) ++ dst r)
  let r := ds.raw
  let as := ps.map (fun p => (p, gridLanes s cx g a.toNat (gDim r) none p))
  bndRegs s ps (regsFrom a.toNat (gDim r))
  let pages := as.map (fun e => (e.1, (probePages r near e.2).map (fun v => (v, false))))
  let ms ← probeEach s cx.slot pages
  let s ← takeMshrs (s.fillEach pages) (cx.packs.headD 0) cx.slot (pages.flatMap (fun e => e.2.map (fun v => ((mapOf ms e.1).get v.1, 16))))
  let grp := s.nextOp
  return as.foldl (fun s e => addOp s cx grp e.1 .ld (mapOf ms e.1) (dst r) []
    (if near then .nbr ds e.2 d.toNat else .hfind ds e.2 d.toNat)) s
/-- HFIND (R111, R284). -/
def execHfind (g : Guard) (d a b : Fld) (s : State) : Host.Outcome State Fault Refusal :=
  issue (.hfind g d a b) s (findCells g false d a b)
/-- NBR (R111, R284). -/
def execNbr (g : Guard) (d a b : Fld) (s : State) : Host.Outcome State Fault Refusal :=
  issue (.nbr g d a b) s (findCells g true d a b)

/-- HFRAME: once for the lowest member with an active lane; every member receives Sd (R112, R285). -/
def execHframe (g : Guard) (d b : Fld) (s : State) : Host.Outcome State Fault Refusal :=
  issue (.hframe g d b) s (fun cx s => do
    match s.acting cx g with
    | [] => return s
    | p :: _ =>
      let s ← endRegions s cx.slot cx.packs
      awaitCount s cx [p] .st
      let ds ← slotOf cx s b (fun r => gLayout r == 3) (fun (_ : BitVec 512) => [])
      let x := s.pack p
      let l := s.launchOf p
      let pages := (ds.home, true) :: pagesOf (gBase ds.raw) (16 * 2 ^ gHbits ds.raw) true
      let mp ← probe s (.l1 x.core) l.part l.pasid (waiterOf p cx.slot) pages
      let s := s.fillTc (.l1 x.core) l.pasid pages
      return addOp s cx s.nextOp p .st mp [] [d.toNat - 384] (.hframe b.toNat ds cx.packs (d.toNat - 384) (lowLane (s.path p cx.slot).mask) none))

end Sys2Proof.Machine
end

