-- ==== Sys2Proof/Machine/MemEvents.lean ====
section
/-!
DEFINITION. The completions of memory operations: loads, stores, atomics, adds, cell-table steps, cache maintenance,
accesses to host and peer memory, prefetchers and the age holds (R82, R87, R91, R104 to R118, R133, R134, R396).
-/
namespace Sys2Proof.Machine
open Sys2Proof

/-! ### Loads -/

/-- A load of an open region with the translations that have come since, the L1 TLB filled with them (R394, R405); `none` while one is
missing. -/
def resolveLoad (s : State) (o : Op) : Option (State × Op) :=
  match o.pack, o.body with
  | some p, .load accs _ _ _ _ _ =>
    let x := s.pack p
    let loose := accs.filter (fun a => (o.tr.at a.va).isNone)
    let rs := loose.map (fun a => ((a.va, false), s.xlate (.l1 x.core) (s.launch x.launch).pasid (opWaiter o.id) a.va false))
    if rs.all (fun r => match r.2 with | .ok _ => true | _ => false) then
      let o := { o with tr := o.tr ++ pagesIn rs }
      some ((((s.fillTc (.l1 x.core) (s.launch x.launch).pasid (rs.map (·.1))).modOp o.id (fun _ => o)).leaveMerge (opWaiter o.id)), o)
    else none
  | _, _ => some (s, o)

/-- The pages that the merge table has turned away from an operation of pack `p`, looked up again (R396); `none` where there are none. -/
def askAgain (s : State) (o : Op) (p : Nat) : Option State :=
  let l := s.launch o.launch
  let again := s.mshr.turned.filter (fun t => t.who == opWaiter o.id)
  if o.done || again.isEmpty then none
  else some (again.foldl (fun s t => s.wantPage (.l1 (s.pack p).core) l.part l.pasid t.who t.page false) s)

/-- The data of an LD or SLD arrive: the lines filled, the destinations written, MEMERR for poison (R82, R270, R407). -/
def arriveLoad (s : State) (o : Op) (p : Nat) (accs : List Acc) (n dst : Nat) (sx scalar : Bool) (pol : Policy) : State :=
  let core := (s.pack p).core
  let foot := o.foot
  let s := closeWindows s (linesOf foot)
  let atL2 := pol == .glb && !l1Holds s core foot
  let got := accs.map (fun a => (a, loadParts s o core atL2 a.va (o.tr.get a.va) n))
  let miss := (missLines s core foot).filter (fun l => !isBus (128 * l))
  let s := fillLines s core (allocL1 pol) miss
  let s := if atL2 then (foot.flatMap wordsOf).foldl (fun s w => dropL1Core s core w) s else s
  let s := s.modPack p (fun x =>
    if scalar then
      got.foldl (fun x r =>
        let v := ofBytes (r.2.flatMap (fun w => leBytes w.1.toNat (if w.2 then 4 else min n 4)))
        x.sset dst (if sx && !(r.2.any (·.2)) then extend (if n = 1 then .i8 else if n = 2 then .i16 else if n = 4 then .i32 else .i64) v
                    else BitVec.ofNat 64 v)) x
    else
      let x := got.foldl (fun x r => x.place dst n sx r.1.lane r.2) x
      x.settleTags dst ((n + 3) / 4) (maskOf (accs.map (·.lane))) false)
  memErr s p ((got.filter (fun r => r.2.any (·.2))).map (fun r => (r.1.lane, r.1.va)))

/-- A lane's results written to registers from `dst`, or the canonical NaN in all of them where it read poison. -/
def laneResult (s : State) (p dst lane : Nat) (bad : Bool) (ws : List W32) : State :=
  s.modPack p (fun x => ws.zipIdx.foldl (fun x w => x.vset (dst + w.2) lane (if bad then nanBits else w.1)) x)
/-- The results of several lanes: lane, the address of the poison it read, words; one MEMERR for all (R407). -/
def laneResults (s : State) (p dst : Nat) (res : List (Nat × Option Nat × List W32)) : State :=
  memErr (res.foldl (fun s t => laneResult s p dst t.1 t.2.1.isSome t.2.2) s) p
    (res.filterMap (fun t => t.2.1.map (fun va => (t.1, va))))
/-- The data of an ILD or ILDG arrive (R96, R100, R281). -/
def arriveGrid (s : State) (o : Op) (p : Nat) (d : DSlot) (ord : Nat) (grad : Bool) (lanes : List GLane) (dst : Nat) : State :=
  let core := (s.pack p).core
  let foot := o.foot
  let s := closeWindows s (linesOf foot)
  let r := d.raw
  let n := gridSpan r
  let raw := fun va => ofBytes ((List.range n).map (fun i => loadByte s o core false (va + i) (o.tr.get va + i)))
  let rd := fun (m : List Nat) (c : Nat) => readElem r m (raw (gridAddr r m c))
  let res := lanes.map (fun l =>
    let ws := (List.range (gChan r)).flatMap (fun c =>
      let v := gridRead r ord l.x c rd
      if grad then v.1 :: v.2 else [v.1])
    let bad := (laneAddrs r ord l.x).find? (fun va => (List.range n).any (fun i => loadPoison s o core false (va + i) (o.tr.get va + i)))
    (l.lane, bad, ws))
  let s := fillLines s core true ((missLines s core foot).filter (fun l => !isBus (128 * l)))
  let s := laneResults s p dst res
  s.modPack p (fun x => x.settleTags dst (gChan r * (if grad then gDim r + 1 else 1)) (maskOf (lanes.map (·.lane))) false)

/-- `n` bytes of a load served at the L2, its own pack's bytes forwarded (R111, R115). -/
def l2Nat (s : State) (o : Op) (va n : Nat) : Nat :=
  ofBytes ((List.range n).map (fun i => loadByte s o 0 true (va + i) (o.tr.get va + i)))
/-- Whether a key doubleword is that of a valid bucket of a cell (R109). -/
def isKey (c : List Int) (k : Nat) : Bool := k / 2 ^ 63 == 1 && k % 2 ^ 48 == cellKey c % 2 ^ 48
/-- The bucket of a probe that holds a cell (R109, R111). -/
def findCell (s : State) (o : Op) (d : BitVec 512) (c : List Int) : Option Nat :=
  (probeAddrs d c).find? (fun a => isKey c (l2Nat s o (a + 8) 8))
/-- The buckets that a probe reads: up to the first at which it stops (R110, R111). -/
def readUpTo (stop : Nat → Bool) : List Nat → List Nat
  | [] => []
  | a :: as => if stop a then [a] else a :: readUpTo stop as
/-- Where a probe reads poison. -/
def probePoison (s : State) (tr : PMap) (as : List Nat) : Option Nat :=
  as.find? (fun a => (List.range 4).any (fun i => poisoned s (tr.get a + 4 * i)))
/-- The results of HFIND and NBR arrive, read at the L2, whose lines are filled; the core's own copies of what was read go, so that no
later load returns an earlier write (R82, R111, R118, R284). -/
def arriveCells (s : State) (o : Op) (p : Nat) (d : DSlot) (near : Bool) (lanes : List GLane) (dst : Nat) : State :=
  let foot := o.foot
  let s := closeWindows s (linesOf foot)
  let r := d.raw
  let head := fun (m : Option (List Int)) => match m.bind (findCell s o r) with
    | some a => (BitVec.ofNat 32 (l2Nat s o a 4), BitVec.ofNat 32 (l2Nat s o (a + 4) 4))
    | none => (0xFFFFFFFF, 0)
  let read := fun (l : GLane) => (if near then nearCells r l.x else [cellOf r l.x]).flatMap (fun m => match m with
    | some c => readUpTo (fun a => isKey c (l2Nat s o (a + 8) 8)) (probeAddrs r c)
    | none => [])
  let res := lanes.map (fun l => (l.lane, probePoison s o.tr (read l),
    if near then (nearCells r l.x).map (fun m => (head m).1) else [(head (cellOf r l.x)).1, (head (cellOf r l.x)).2]))
  let core := (s.pack p).core
  let s := (foot.flatMap wordsOf).foldl (fun s w => dropL1Core s core w) (fillLines s core false (linesOf foot))
  let s := laneResults s p dst res
  s.modPack p (fun x => x.settleTags dst (if near then 3 ^ gDim r else 2) (maskOf (lanes.map (·.lane))) false)

/-- The data of an LD-class operation or of a PREF arrive, where nothing holds it back (R82, R118); `bus`: some of it from host or peer
memory. -/
def loadArrives (s : State) (id : Nat) (bus : Bool) : Option State :=
  match s.op id with
  | none => none
  | some o =>
    match o.pack, resolveLoad s o with
    | some p, some (s, o) =>
      let foot := o.foot
      if o.done || heldBack s o foot || anyClosed s foot || (foot.any (fun r => isBus r.1) != bus) then none
      else match o.body with
        | .load accs n dst sx scalar pol => some (completeOp (arriveLoad s o p accs n dst sx scalar pol) id)
        | .grid d ord grad lanes dst => some (completeOp (arriveGrid s o p d ord grad lanes dst) id)
        | .hfind d lanes dst => some (completeOp (arriveCells s o p d false lanes dst) id)
        | .nbr d lanes dst => some (completeOp (arriveCells s o p d true lanes dst) id)
        | .pref l2 ls => if anyClosed s (ls.map (fun l => (128 * l, 128))) then none
            else some (completeOp (ls.foldl (fun s l => prefetchLine s (s.pack p).core (!l2) l) s) id)
        | _ => none
    | some p, none => if bus then none else askAgain s o p
    | none, _ => none
/-- LOAD_DATA_RETURN (R82, R96, R106, R111, R118); `evict` names the lines that make way (see `evictSome`). -/
def execLoadDataReturn (op : Nat) (evict : List Nat) (s : State) : Host.Outcome State Fault Refusal :=
  due "LOAD_DATA_RETURN" ((loadArrives s op false).map (fun t =>
    evictSome t (match s.op op with | some o => s.opCore o | none => 0) evict))
/-- HOST_PEER_LOAD_COMPLETION (R133, R426). -/
def execHostPeerLoadCompletion (op : Nat) (s : State) : Host.Outcome State Fault Refusal :=
  due "HOST_PEER_LOAD_COMPLETION" (loadArrives s op true)

/-- GDLD_DATA_ARRIVAL: the lines filled, the slot written whole (R82, R93, R279). -/
def execGdldDataArrival (op : Nat) (s : State) : Host.Outcome State Fault Refusal :=
  due "GDLD_DATA_ARRIVAL" (match s.op op with
    | some o => (match o.pack, o.body with
      | some p, .gdld slot raw va _ => if o.done || anyClosed s o.foot then none else
          let core := (s.pack p).core
          let t := fillLines s core true ((missLines s core o.foot).filter (fun l => !isBus (128 * l)))
          some (completeOp (t.modBlock (s.pack p).block (fun b => { b with slots := b.slots.set slot (some ⟨raw, va⟩) })) op)
      | _, _ => none)
    | none => none)

/-! ### Stores -/

/-- An operation's remaining bytes. -/
def Op.bytes (o : Op) : List (Nat × BitVec 8) := match o.body with | .store bs _ => bs | .post bs => bs | _ => []
/-- An operation with the bytes that satisfy a condition performed: the rest kept, or the operation complete. -/
def bytesDone (s : State) (o : Op) (gone : Nat × BitVec 8 → Bool) : State :=
  let rest := o.bytes.filter (fun b => !gone b)
  if rest.isEmpty then completeOp s o.id
  else s.modOp o.id (fun o => { o with body := match o.body with
    | .store _ a => .store rest a
    | .post _ => .post rest
    | b => b })
/-- The bytes of a store in a part of memory, where they may be performed now (R115, R126, R362). -/
def readyBytes (s : State) (id : Nat) (part : Nat → Bool) : Option (Op × List (Nat × BitVec 8)) :=
  match s.op id with
  | none => none
  | some o =>
    let bs := o.bytes.filter (fun b => part b.1)
    let foot := bs.map (fun b => (b.1, 1))
    let det := match o.body with | .post _ => awaitsDet s o | _ => false
    if o.done || bs.isEmpty || heldBack s o foot || anyClosed s foot || det then none else some (o, bs)
/-- STORE_REGISTER: the bytes of one word register at the L2 (R79 to R82, R115, R116, R269). -/
def execStoreRegister (op word : Nat) (evict : List Nat) (s : State) : Host.Outcome State Fault Refusal :=
  let here := fun a => !isBus a && a / 4 == word
  due "STORE_REGISTER" ((readyBytes s op here).map (fun r =>
    let core := s.opCore r.1
    let alloc := match r.1.body with | .store _ a => a | _ => true
    evictSome (bytesDone (registerBytes s (some core) alloc r.2) r.1 (fun b => here b.1)) core evict))
/-- HOST_FLUSH_READ_COMPLETION: the host acknowledges the stores of an operation (R121, R133). -/
def execHostFlushReadCompletion (op : Nat) (s : State) : Host.Outcome State Fault Refusal :=
  due "HOST_FLUSH_READ_COMPLETION" ((readyBytes s op isHost).map (fun r =>
    bytesDone { r.2.foldl (fun s b => ramWrite s b.1 b.2) s with sent := s.sent ++ [.flush] } r.1 (fun b => isHost b.1)))

/-! ### Atomics and adds -/

/-- A lane of an atomic that may be performed now: no earlier lane of its words left, nothing older in the way, in det order
(R117, R269, R362). -/
def readyLane (s : State) (o : Op) (lane : Nat) : Option (AtomLane × Nat) :=
  match o.body with
  | .atom _ n _ ls =>
    match ls.find? (fun l => l.lane == lane) with
    | none => none
    | some l =>
      let ph := o.tr.get l.va
      let foot := [wholeWords ph n]
      let early := (ls.takeWhile (fun q => q.lane != lane)).any (fun q => overlaps [wholeWords (o.tr.get q.va) n] foot)
      if o.done || early || heldBack s o foot || anyClosed s foot || awaitsDet s o then none else some (l, ph)
  | _ => none
/-- One lane less of an operation that acts lane by lane: the poison its lane read kept, and with the last lane one MEMERR and the
completion (R407). -/
def laneLess (s : State) (o : Op) (p : Nat) (bad : List (Nat × Nat)) (last : Bool) (rest : Body) : State :=
  if last then completeOp (memErr s p (o.bad ++ bad)) o.id
  else s.modOp o.id (fun o => { o with bad := o.bad ++ bad, body := rest })
/-- A lane of an atomic performed: its old value written, the lane taken out, the operation complete with its last lane. -/
def laneDone (s : State) (o : Op) (p lane va old : Nat) (bad : Bool) : State :=
  match o.body with
  | .atom op n d ls =>
    let rest := ls.filter (fun l => l.lane != lane)
    laneLess (atomResult s p d n lane old bad) o p (if bad then [(lane, va)] else []) rest.isEmpty (.atom op n d rest)
  | _ => s
/-- One lane's read-modify-write (R117, R273, R274). -/
def performLane (s : State) (id lane : Nat) (place : Nat → Bool) : Option State :=
  match s.op id with
  | none => none
  | some o => (match o.pack, o.body, readyLane s o lane with
    | some p, .atom op n _ _, some (l, ph) =>
      if !place ph then none
      else
        let r := atomAt s (s.pack p).core op ph n l.v.toNat l.cmp.toNat
        some (laneDone r.1 o p lane l.va r.2.1 r.2.2)
    | _, _, _ => none)
/-- ATOMIC_PERFORM (R117, R273, R274). -/
def execAtomicPerform (op lane : Nat) (s : State) : Host.Outcome State Fault Refusal :=
  due "ATOMIC_PERFORM" (performLane s op lane (fun ph => !isBus ph))
/-- HOST_ATOMICOP_COMPLETION: the old value, or all ones and an imprecise XLATE (R134). -/
def execHostAtomicopCompletion (op lane : Nat) (ok : Bool) (s : State) : Host.Outcome State Fault Refusal :=
  due "HOST_ATOMICOP_COMPLETION" (
    if ok then performLane s op lane isHost
    else match s.op op with
      | none => none
      | some o => (match o.pack, o.body, readyLane s o lane with
        | some p, .atom _ _ _ _, some (l, ph) =>
          if !isHost ph then none
          else
            let s := laneDone s o p lane l.va (2 ^ 64 - 1) false
            some (s.modPack p (fun x => { x with pending := x.pending ++ [{ cause := cXLATE, info := xlateInfo l.va true, lanes := 1#16 <<< lane }] }))
        | _, _, _ => none))

/-- The `k`th add of an operation, where it may arrive now: the first left of its line where the operation is held, its line entered by
no other instruction in between, and no older one of its members still to enter it; adds that are not held arrive in any order, a minimum
or maximum after its element's earlier lanes (R104, R105, R269, R332; log 99). -/
def readyAdd (s : State) (o : Op) (k : Nat) : Option AddU :=
  match o.body with
  | .adds us held sp _ =>
    match us[k]? with
    | none => none
    | some u =>
      let foot := [wholeWords u.ph u.fmt.bytes]
      let line := lineOf u.ph
      let early := (us.take k).any (fun v => if held then lineOf v.ph == line else !sp && u.op != .add && v.ph == u.ph)
      let mates := (s.ops.filter (fun q => q.grp == o.grp)).map (·.pack)
      let other := held && s.ops.any (fun q => q.grp != o.grp && !q.done && (match q.body with
        | .adds vs true _ beg => vs.any (fun v => lineOf v.ph == line) && (beg.contains line || (decide (q.id < o.id) && mates.contains q.pack))
        | _ => false))
      if o.done || early || other || heldBack s o foot || anyClosed s foot || awaitsDet s o then none else some u
  | _ => none
/-- A line entered by an instruction, whose members' parts keep other instructions out until all its adds to the line are in (R105). -/
def markBegun (s : State) (grp line : Nat) : State :=
  { s with ops := s.ops.map (fun q => if q.grp == grp then { q with body := match q.body with
      | .adds us h sp b => .adds us h sp (if b.contains line then b else b ++ [line]) | b => b } else q) }
/-- SPLAT_ADD_ARRIVAL: an add reaches its update unit and is applied, or accepted into a held window (R104 to R108, R366). -/
def execSplatAddArrival (op k : Nat) (s : State) : Host.Outcome State Fault Refusal :=
  due "SPLAT_ADD_ARRIVAL" (match s.op op with
    | none => none
    | some o => (match o.pack, o.body, readyAdd s o k with
      | some p, .adds us held _ _, some u =>
        if isBus u.ph || (intrudes s o.launch held u && recordsFull s 0) then none
        else
          let s := addArrive s o.launch (s.pack p).core held u
          let rest := us.eraseIdx k
          let s := if held then markBegun s o.grp (lineOf u.ph) else s
          some (if rest.isEmpty then completeOp s op else s.modOp op (fun o => { o with body := match o.body with
            | .adds _ h p b => .adds rest h p b | b => b }))
      | _, _, _ => none))
/-- PEER_ACKNOWLEDGE: what an operation has for peer memory is performed at the peer's L2 (R133, R134, R426). -/
def execPeerAcknowledge (op : Nat) (s : State) : Host.Outcome State Fault Refusal :=
  due "PEER_ACKNOWLEDGE" (match s.op op with
    | none => none
    | some o => (match o.body with
      | .atom _ _ _ ls => (match ls.find? (fun l => isPeer (o.tr.get l.va)) with
        | some l => performLane s op l.lane isPeer
        | none => none)
      | .adds us held sp beg =>
        let mine := us.filter (fun u => isPeer u.ph)
        let rest := us.filter (fun u => !isPeer u.ph)
        if o.done || mine.isEmpty || heldBack s o (mine.map (fun u => wholeWords u.ph u.fmt.bytes)) || awaitsDet s o then none
        else
          let t := mine.foldl applyAdd s
          some (if rest.isEmpty then completeOp t op else t.modOp op (fun o => { o with body := .adds rest held sp beg }))
      | _ => (readyBytes s op isPeer).map (fun r =>
          bytesDone (r.2.foldl (fun s b => ramWrite s b.1 b.2) s) r.1 (fun b => isPeer b.1))))

/-! ### Cell tables -/

/-- Bytes written at the L2 by an atomic step of a core (R116). -/
def stepWrite (s : State) (core ph : Nat) (bs : List (BitVec 8)) : State :=
  revoke (registerBytes s none false (bs.zipIdx.map (fun e => (ph + e.2, e.1)))) core (wordsOf (ph, bs.length))
/-- HINS_LANE over the buckets of a probe: the state, old and status (R110). -/
def hinsProbe (s : State) (core : Nat) (tr : PMap) (d : DSlot) (c : List Int) (p : W32) : List Nat → State × W32 × Nat
  | [] => (s, 0xFFFFFFFF, 2)
  | a :: as =>
    let ph := tr.get a
    let k := memNat s (ph + 8) 8
    if k / 2 ^ 63 = 1 ∧ k % 2 ^ 48 = cellKey c % 2 ^ 48 then
      let old := memNat s ph 4
      let n := memNat s (ph + 4) 4
      (stepWrite s core ph (leBytes (p.toNat + 2 ^ 32 * ((n + 1) % 2 ^ 32)) 8), BitVec.ofNat 32 old, 0)
    else if k / 2 ^ 63 = 0 then
      let s := stepWrite s core ph (leBytes (p.toNat + 2 ^ 32) 8 ++ leBytes (cellKey c) 8)
      let h := tr.get d.home + 56
      let dw : W64 := BitVec.ofNat 64 (memNat s h 8)
      let occ := (bitsAt dw 0 32 + 1) % 2 ^ 32
      let dw := putBits dw 0 32 occ
      let dw := if 3 * 2 ^ gHbits d.raw < 4 * occ then putBits dw 43 1 1 else dw
      (stepWrite s core h (leBytes dw.toNat 8), 0xFFFFFFFF, 1)
    else hinsProbe s core tr d c p as
/-- Where a HINS lane reads poison: in a bucket that its probe reads, up to the cell's or a free one, or in the home's doubleword of OCC and
PEND (R110, R407). -/
def hinsPoison (s : State) (tr : PMap) (d : DSlot) (x : List W32) : Option Nat :=
  let read := match cellOf d.raw x with
    | some c => readUpTo (fun a => let k := memNat s (tr.get a + 8) 8; isKey c k || k / 2 ^ 63 == 0) (probeAddrs d.raw c)
    | none => []
  match probePoison s tr read with
  | some a => some a
  | none => if poisoned s (tr.get d.home + 56) || poisoned s (tr.get d.home + 60) then some d.home else none
/-- HINS_BUCKET_STEP: one lane's whole procedure at the L2; the lanes ascend, as they share the home's OCC and PEND (R110, R269, R283). -/
def execHinsBucketStep (op lane : Nat) (s : State) : Host.Outcome State Fault Refusal :=
  due "HINS_BUCKET_STEP" (match s.op op with
    | none => none
    | some o => (match o.pack, o.body with
      | some p, .hins d lanes dst =>
        (match lanes.find? (fun l => l.lane == lane) with
        | none => none
        | some l =>
          let mine := probePages d.raw false [l]
          let early := !(lanes.takeWhile (fun q => q.lane != lane)).isEmpty
          let foot := (o.tr.get d.home, 64) :: mine.map (fun a => (o.tr.get a, 16))
          if o.done || early || heldBack s o foot || anyClosed s foot || awaitsDet s o then none
          else
            let s := closeWindows s (linesOf foot)
            let bad := hinsPoison s o.tr d l.x
            let core := (s.pack p).core
            let r := match cellOf d.raw l.x with
              | none => (s, (0xFFFFFFFF : W32), 3)
              | some c => hinsProbe s core o.tr d c l.p (probeAddrs d.raw c)
            let pend := (BitVec.ofNat 64 (memNat r.1 (o.tr.get d.home + 56) 8)).getLsbD 43
            let s := laneResult r.1 p dst lane bad.isSome [r.2.1, BitVec.ofNat 32 (r.2.2 + if pend then 256 else 0)]
            let rest := lanes.filter (fun q => q.lane != lane)
            some (laneLess s o p (bad.toList.map (fun va => (lane, va))) rest.isEmpty (.hins d rest dst)))
      | _, _ => none))

/-- The table "Coarsening steps" on bits [511:448] of a home record: the new bits, whether the table is cleared, whether the
step is refused (R112). -/
def coarsen (hbits : Nat) (dw : W64) : W64 × Bool × Bool :=
  let occ := bitsAt dw 0 32
  let level := bitsAt dw 32 4
  let lowrun := bitsAt dw 44 4
  let put := fun (occ level pend lowrun : Nat) => putBits (putBits (putBits (putBits dw 0 32 occ) 32 4 level) 43 1 pend) 44 4 lowrun
  if dw.getLsbD 43 then
    (if level < 15 then (put 0 (level + 1) 0 0, true, false) else (put occ level 0 lowrun, false, true))
  else if 5 * occ < 2 ^ hbits then
    (if lowrun = 7 ∧ 0 < level then (put 0 (level - 1) 0 0, true, false)
     else (put occ level 0 (min (lowrun + 1) 8), false, false))
  else (put occ level 0 0, false, false)
/-- The buckets of a cell table that an HFRAME has still to clear (R112). -/
def bucketsLeft (d : DSlot) (gone : List Nat) : List Nat := (List.range (2 ^ gHbits d.raw)).filter (fun b => !gone.contains b)
/-- HFRAME_APPLY: the step at the home record, the slot reloaded and Sd written in every member; where the step clears the table,
each further one clears one of the buckets left, in a free order, and the last completes the operation; poison in the home record raises
MEMERR (R112, R285, R407; log 27). -/
def execHframeApply (op : Nat) (s : State) : Host.Outcome State Fault Refusal :=
  due "HFRAME_APPLY" (match s.op op with
    | none => none
    | some o => (match o.pack, o.body with
      | some p, .hframe slot d packs sd ln (some gone) =>
        let left := bucketsLeft d gone
        let bucket := nth 0 left (Config.freeBucket s.fresh % left.length)
        let ph := o.tr.get (gBase d.raw + 16 * bucket)
        if o.done || closed s (lineOf ph) then none
        else
          let s := stepWrite (closeWindows { s with fresh := s.fresh + 1 } [lineOf ph]) (s.pack p).core ph (leBytes 0xFFFFFFFF 16)
          some (if left.length ≤ 1 then completeOp s op
            else s.modOp op (fun o => { o with body := .hframe slot d packs sd ln (some (gone ++ [bucket])) }))
      | some p, .hframe slot d packs sd ln none =>
        let foot := o.foot
        if o.done || heldBack s o foot || anyClosed s foot then none
        else
          let core := (s.pack p).core
          let h := o.tr.get d.home
          let s := closeWindows s [lineOf h]
          let dw : W64 := BitVec.ofNat 64 (memNat s (h + 56) 8)
          let r := coarsen (gHbits d.raw) dw
          let s := memErr s p (if (List.range 16).any (fun i => poisoned s (h + 4 * i)) then [(ln, d.home)] else [])
          let s := stepWrite s core (h + 56) (leBytes r.1.toNat 8)
          let s := s.modBlock (s.pack p).block (fun b => { b with slots := b.slots.set slot (some ⟨BitVec.ofNat 512 (memNat s h 64), d.home⟩) })
          let v : W64 := BitVec.ofNat 64 ((if r.2.1 then 1 else 0) + (if r.2.2 then 2 else 0) + 256 * bitsAt r.1 32 4 + 2 ^ 32 * bitsAt dw 0 32)
          let s := packs.foldl (fun s q => s.modPack q (fun x => x.sset sd v)) s
          some (if r.2.1 then s.modOp op (fun o => { o with ds := [], body := .hframe slot d packs sd ln (some []) }) else completeOp s op)
      | _, _ => none))

/-! ### Cache maintenance, prefetchers, age holds -/

/-- The words of lines dropped from one core's L1, or from all. -/
def dropLines (s : State) (core : Option Nat) (ls : List Nat) : State :=
  { s with mem := { s.mem with l1 := s.mem.l1.filter (fun e => !ls.contains (e.1 / 256 / 32) ||
      (match core with | some c => e.1 % 256 != c | none => false)) } }
/-- L2 lines dropped without write-back (R89). -/
def dropL2 (s : State) (ls : List Nat) : State :=
  { s with mem := { s.mem with l2 := s.mem.l2.filter (fun e => !ls.contains (e.1 / 32)) } }
/-- The table "Cache maintenance" (R89). -/
def cmoEffect (s : State) (core : Nat) (form : CmoForm) (lvl : CmoLevel) (ls : List Nat) : State :=
  let s := closeWindows s ls
  match form, lvl with
  | .clean, .mem => ls.foldl (fun s l => writeBack s l true) s
  | .clean, .l1 => s
  | .clean, .l2 => s
  | .inval, .l1 => dropLines s (some core) ls
  | .inval, .l2 => dropLines s none ls
  | .inval, .mem => dropL2 (dropLines s none ls) ls
  | .cleaninv, .l1 => dropLines s (some core) ls
  | .cleaninv, .l2 => dropLines s none ls
  | .cleaninv, .mem => dropLines (evictLines s ls) none ls
/-- CMO_COMPLETE: once every page is known, the earlier stores to the lines have registered; pages without a translation
are skipped, and those that the merge table turned away are looked up again (R89, R90, R396). -/
def execCmoComplete (op : Nat) (s : State) : Host.Outcome State Fault Refusal :=
  due "CMO_COMPLETE" (match s.op op with
    | none => none
    | some o => (match o.pack, o.body with
      | some p, .cmo form lvl ls =>
        let who := opWaiter op
        let pasid := (s.launch o.launch).pasid
        let core := (s.pack p).core
        let asked := s.merges.any (fun m => m.pasid == pasid && m.waiters.contains who && m.st == .ats)
        let late := ls.filterMap (fun l => if (o.tr.at l).isSome then none else
          match s.xlate (.l1 core) pasid who l false with | .ok ph => some (ph % 2 ^ 64) | _ => none)
        let foot := o.foot ++ late.map (fun ph => (ph, 128))
        let again := askAgain s o p
        if again.isSome then again
        else if o.done || asked || heldBack s o foot || anyClosed s foot then none
        else some (completeOp (cmoEffect (s.leaveMerge who) core form lvl (linesOf foot)) op)
      | _, _ => none))

/-- Whether a level's prefetcher has an access in the 4 KiB of a line: a word of them is in that level, or a load of the core is
outstanding there (R91; log 96). -/
def prefetchNear (s : State) (core : Option Nat) (line : Nat) : Bool :=
  match core with
  | some c => s.mem.l1.any (fun e => e.1 % 256 == c && e.1 / 256 / 1024 == line / 32) ||
      s.ops.any (fun o => !o.done && o.takesForward && s.opCore o == c && o.foot.any (fun r => r.1 / 4096 == line / 32))
  | none => s.mem.l2.any (fun e => e.1 / 1024 == line / 32)
/-- HARDWARE_PREFETCH: a line brought in by an L1's prefetcher or the L2's, where R91 lets it; a line with an open held-add window is
left alone (R91, R92, R107; log 96). -/
def execHardwarePrefetch (core : Option Nat) (pasid va : Nat) (s : State) : Host.Outcome State Fault Refusal :=
  due "HARDWARE_PREFETCH" (match prefLine s (match core with | some c => .l1 c | none => .l2) pasid va with
    | none => none
    | some l => if !prefetchNear s core l || (mapGet s.mem.windows l).isSome then none
        else some (prefetchLine s (core.getD 0) core.isSome l))

/-- MSHR_AGE_HOLD: the core's oldest rejected load has waited 4,096 clocks; freed MSHRs are held for it (R87). -/
def execMshrAgeHold (core : Nat) (s : State) : Host.Outcome State Fault Refusal :=
  due "MSHR_AGE_HOLD" (
    match s.mshr.rejected.find? (fun e => (s.pack e.pack).core == core && ((s.pack e.pack).slot e.slot).stall == some .mshr) with
    | some e => if e.since + 4096 ≤ s.clk.toNat ∧ s.mshr.held.contains core = false
        then some { s with mshr := { s.mshr with held := s.mshr.held ++ [core] } } else none
    | none => none)
/-- MERGE_TABLE_AGE_HOLD: the oldest lookup turned away has waited 4,096 clocks (R396). -/
def execMergeTableAgeHold (s : State) : Host.Outcome State Fault Refusal :=
  due "MERGE_TABLE_AGE_HOLD" (
    match s.mshr.turned.find? (fun t => s.waits t.who) with
    | some t => if t.since + 4096 ≤ s.clk.toNat ∧ s.mshr.held.contains 256 = false
        then some { s with mshr := { s.mshr with held := s.mshr.held ++ [256] } } else none
    | none => none)

end Sys2Proof.Machine
end

