-- ==== Sys2Proof/Machine/Courier.lean ====
section
/-!
DEFINITION. Barriers (R148 to R151, R289 to R291, R364), the courier (R136 to R147, R286 to R288), guarded commands (R152 to
R154) and region sequence numbers (R147, R417).
-/
namespace Sys2Proof.Machine
open Sys2Proof

/-! ### Barriers -/

/-- The end of exclusions that an event of a stamp brings in a `.det` launch (R364). -/
def endExclusion (s t : State) (blk stamp : Nat) : State :=
  { t with packs := t.packs.zipIdx.map (fun e =>
      if e.1.block == blk && !e.1.retired && (t.launch e.1.launch).det && isExcluded s e.2 && !isExcluded t e.2
      then { e.1 with lclk := BitVec.ofNat 64 (max e.1.lclk.toNat (stamp + 1)) } else e.1) }
/-- A phase that can end ends, and the slots that wait on it look again (R149). -/
def endPhase (s : State) (blk b : Nat) : State :=
  let bar := nth {} (s.block blk).bars b
  if bar.expect ≤ bar.arr ∧ 0 < bar.arr then
    let s := s.modBlock blk (fun k => { k with bars := modNth k.bars b (fun x => { x with phase := x.phase + 1, arr := 0 }) })
    let wake := fun (sl : Slot) => if sl.stall == some (.bwait b) then { sl with stall := none } else sl
    { s with packs := s.packs.map (fun x => if x.block == blk then { x with lead := wake x.lead, heel := wake x.heel } else x) }
  else s
/-- An event at a barrier: its change, the exclusions it ends, then the phase-end check (R149, R291, R364). -/
def barStep (s : State) (blk b stamp : Nat) (f : Bar → Bar) : State :=
  let t := s.modBlock blk (fun k => { k with bars := modNth k.bars b f })
  endPhase (endExclusion s t blk stamp) blk b
/-- The barrier of a pack's block. -/
def State.bar (s : State) (p b : Nat) : Bar := nth {} (s.blockOf p).bars b
/-- A barrier event of a member, with its stamp. -/
def barOf (s : State) (p b : Nat) (f : Bar → Bar) : State := barStep s (s.pack p).block b (s.pack p).lclk.toNat f
/-- A barrier instruction that acts once in each member whose condition holds, in det order (R151, R290). -/
def barEach (g : Guard) (cx : Cx) (s : State) (f : State → Nat → State) : M State := do
  let ps := cx.packs.filter (s.ucond cx g)
  if ps.isEmpty then return s
  awaitTurn s (cx.packs.headD 0)
  return ps.foldl f s

/-- BINIT (R149, R290). -/
def execBinit (g : Guard) (d : Fld) (imm : BitVec 32) (s : State) : Host.Outcome State Fault Refusal :=
  issue (.binit g d imm) s (fun cx s => do
    failIf (cx.packs.any (s.ucond cx g) && (imm == 0 || decide (65535 < imm.toNat))) cOPFORMAT 0
    barEach g cx s (fun s p => barOf s p d.toNat (fun b => { b with expect := imm.toNat, arr := 0 })))
/-- BARR: the reference phase, then the arrival (R149, R150). -/
def execBarr (g : Guard) (a : Fld) (s : State) : Host.Outcome State Fault Refusal :=
  issue (.barr g a) s (fun cx s => barEach g cx s (fun s p =>
    let ph := (s.bar p a.toNat).phase
    barOf (s.modPack p (fun x => { x with refs := x.refs.set a.toNat ph })) p a.toNat (fun b => { b with arr := b.arr + 1 })))
/-- BJOIN (R149). -/
def execBjoin (g : Guard) (a : Fld) (s : State) : Host.Outcome State Fault Refusal :=
  issue (.bjoin g a) s (fun cx s => barEach g cx s (fun s p =>
    barOf s p a.toNat (fun b => { b with expect := min 65535 (b.expect + 1) })))
/-- BLEAVE (R149). -/
def execBleave (g : Guard) (a : Fld) (s : State) : Host.Outcome State Fault Refusal :=
  issue (.bleave g a) s (fun cx s => barEach g cx s (fun s p =>
    barOf s p a.toNat (fun b => { b with expect := b.expect - 1 })))
/-- Whether the phase that a pack refers to has ended. -/
def phaseEnded (s : State) (p b : Nat) : Bool := (s.bar p b).phase != nth 0 (s.pack p).refs b
/-- BWAIT (R149, R290). -/
def execBwait (g : Guard) (a : Fld) (s : State) : Host.Outcome State Fault Refusal :=
  issue (.bwait g a) s (fun cx s => do
    waitIf (cx.packs.any (fun p => s.ucond cx g p && !phaseEnded s p a.toNat)) s (.bwait a.toNat)
    return s)
/-- BTEST (R149, R290). -/
def execBtest (g : Guard) (d a : Fld) (s : State) : Host.Outcome State Fault Refusal :=
  issue (.btest g d a) s (fun cx s =>
    .ok (eachScalar s cx g (fun p x => x.sset (d.toNat - 384) (if phaseEnded s p a.toNat then 1 else 0))))

/-! ### Waybills and boxes -/

/-- Fields of a waybill (R136). -/
def wBase (w : BitVec 512) : Nat := bitsAt w 0 57
def wExt (w : BitVec 512) (a : Nat) : Nat := bitsAt w (64 + 32 * a) 32
def wRank (w : BitVec 512) : Nat := bitsAt w 476 3 + 1
def wSize (w : BitVec 512) : Nat := 2 ^ bitsAt w 474 2
def wPitch (w : BitVec 512) : Nat := bitsAt w 480 16
def wSwz (w : BitVec 512) : Bool := w.getLsbD 479
/-- The byte stride of a dimension; dimension 0 is contiguous. -/
def wStride (w : BitVec 512) (a : Nat) : Nat := if a = 0 then wSize w else bitsAt w (224 + 48 * (a - 1)) 48
/-- The extent of a dimension, 1 where it is unused. -/
def wLen (w : BitVec 512) (a : Nat) : Nat := if a < wRank w then wExt w a else 1
/-- The rules of the table "Copy operand faults" that the record and the box alone decide, up to the element format
(R139). -/
def waybillOk (w : BitVec 512) (ext : List Nat) (red : Option RFmt) : Bool :=
  let axes := List.range 5
  bitsAt w 496 16 == 0 && bitsAt w 416 58 == 0 && bitsAt w 57 7 == 0 && decide (wRank w ≤ 5) &&
  axes.all (fun a => decide (a < wRank w) || (wExt w a == 0 && (a == 0 || wStride w a == 0))) &&
  wBase w % wSize w == 0 && axes.all (fun a => wStride w a % wSize w == 0) &&
  !(wSwz w && (wPitch w % 128 != 0 || wSize w == 8)) &&
  decide (nth 0 ext 0 * wSize w ≤ wPitch w) && axes.all (fun a => decide (a < wRank w) || decide (nth 0 ext a ≤ 1)) &&
  (match red with | none => true | some .f32 => wSize w == 4 | some .bf16 => wSize w == 2)
/-- Where byte `c` of row `r` of a box lies in the scratchpad (R76, R137). -/
def boxPlace (w : BitVec 512) (z r c : Nat) : Nat :=
  if wSwz w then swzOff z (wPitch w) r c else z + r * wPitch w + c
/-- Number of rows of a box. -/
def boxRows (ext : List Nat) : Nat := nth 0 ext 1 * nth 0 ext 2 * nth 0 ext 3 * nth 0 ext 4
/-- Whether a box has no element. -/
def boxEmpty (ext : List Nat) : Bool := ext.any (· == 0)
/-- The lowest scratchpad byte of a box at or beyond `top` (R139, R371). -/
def boxBeyond (w : BitVec 512) (z : Nat) (ext : List Nat) (top : Nat) : Option Nat :=
  if boxEmpty ext then none
  else
    let r0 := if top ≤ z then 0 else (top - z) / wPitch w
    ([r0, r0 + 1].filter (fun r => decide (r < boxRows ext))).foldl (fun m r =>
      (List.range (nth 0 ext 0 * wSize w)).foldl (fun m c =>
        let a := boxPlace w z r c
        if a < top then m else match m with | some b => some (min a b) | none => some a) m) none

/-- A row of a box: its number, the address of its first in-bounds element, and the range of c0 in bounds (R138). -/
structure BoxRow where
  row : Nat
  addr : Nat
  lo : Nat
  hi : Nat
  deriving DecidableEq, Repr
/-- The coordinates (c1 … c4) of a row. -/
def rowCoords (ext : List Nat) (r : Nat) : List Nat :=
  [r % nth 0 ext 1, r / nth 0 ext 1 % nth 0 ext 2, r / nth 0 ext 1 / nth 0 ext 2 % nth 0 ext 3,
   r / nth 0 ext 1 / nth 0 ext 2 / nth 0 ext 3]
/-- The rows of a box, in box order (R137, R138). An element's address is taken as an unbounded number, which does not wrap; at 2^57 and
above it is unrecoverable (DESIGN CHOICE, log 112). -/
def boxRowsOf (w : BitVec 512) (org : List Int) (ext : List Nat) : List BoxRow :=
  if boxEmpty ext then []
  else (List.range (boxRows ext)).map (fun r =>
    let cs := (rowCoords ext r).zipIdx.map (fun e => (e.2 + 1, nth 0 org (e.2 + 1) + (e.1 : Int)))
    let inside := cs.all (fun c => decide (0 ≤ c.2) && decide (c.2 < (wLen w c.1 : Int)))
    let o0 := nth 0 org 0
    let lo := (max 0 (-o0)).toNat
    let hi := (min ((nth 0 ext 0 : Nat) : Int) ((wLen w 0 : Int) - o0)).toNat
    if inside && decide (lo < hi) then
      ⟨r, (cs.map (fun c => c.2.toNat * wStride w c.1)).sum + wBase w + (o0 + (lo : Int)).toNat * wSize w, lo, hi⟩
    else ⟨r, 0, 0, 0⟩)
/-- The global bytes of the in-bounds elements, as ranges (R138). -/
def boxRanges (w : BitVec 512) (rows : List BoxRow) : List (Nat × Nat) :=
  rows.filterMap (fun r => if r.lo < r.hi then some (r.addr, (r.hi - r.lo) * wSize w) else none)
/-- Ranges of virtual addresses as physical ranges, page by page. -/
def physRanges (m : PMap) (rs : List (Nat × Nat)) : List (Nat × Nat) :=
  rs.flatMap (fun r => (pagesOf r.1 r.2 false).map (fun a =>
    let e := min (r.1 + r.2) (a.1 / 4096 * 4096 + 4096)
    (m.get a.1, e - a.1)))

/-! ### Sequence numbers -/

/-- The region keys of ranges, each once, with a page of it (R147). -/
def regionsOf (pasid : Nat) (rs : List (Nat × Nat)) : List (Nat × Nat) :=
  (rs.flatMap (fun r => (pagesOf r.1 r.2 true).map (fun a => (seqKey pasid a.1, a.1)))).foldl
    (fun l e => if l.any (fun f => f.1 == e.1) then l else l ++ [e]) []
/-- The stacks that keep the counters of regions, each the owner of its region's first 4 KiB page, which is translated for this; the
owner of the touched page where the first is no page of the device (R417; log 35). -/
def regionStacks (s : State) (tc : Tc) (part pasid who : Nat) (m : PMap) (rs : List (Nat × Nat)) : M (List (Nat × Nat)) :=
  let as := rs.map (fun r => (r, s.xlate tc pasid who (r.2 / 65536 * 65536) false))
  let miss := as.filter (fun e => e.2 == .miss)
  if miss.isEmpty then
    .ok (as.map (fun e => (e.1.1, match e.2 with
      | .ok ph => if isBus ph then stackOf (m.get e.1.2) else stackOf ph
      | _ => stackOf (m.get e.1.2))))
  else .error (.stall (miss.foldl (fun s e => s.wantPage tc part pasid who (e.1.2 / 65536 * 16) false) s) .xlate)
/-- Whether the sequence tables have room for regions, given with their stacks (R417). -/
def seqRoom (s : State) (rs : List (Nat × Nat)) : Bool :=
  let new := (rs.filter (fun r => (mapGet s.seqs r.1).isNone)).map (·.2)
  (List.range 8).all (fun k => decide (seqsOn s k + new.count k ≤ 4096))
/-- A number taken in each region (R147, R417). -/
def takeNumbers (s : State) (rs : List (Nat × Nat)) : State × List SeqPart :=
  rs.foldl (fun r e =>
    let v := (mapGet r.1.seqs e.1).getD (e.2, 0, 0)
    ({ r.1 with seqs := mapPut r.1.seqs e.1 (v.1, (v.2.1 + 1) % 2 ^ 32, v.2.2) }, r.2 ++ [⟨e.1, v.2.1, false⟩])) (s, [])
/-- Whether a part is the next of its region. -/
def partTurn (s : State) (q : SeqPart) : Bool :=
  !q.applied && (match mapGet s.seqs q.region with | some v => v.2.2 == q.num | none => false)
/-- A part applied or retired empty: its region goes on to the next number. -/
def passPart (s : State) (q : SeqPart) : State :=
  match mapGet s.seqs q.region with
  | some v => { s with seqs := mapPut s.seqs q.region (v.1, v.2.1, (v.2.2 + 1) % 2 ^ 32) }
  | none => s
/-- SEQUENCE_ENTRY_FREE: an entry whose two numbers are equal is freed (R417). -/
def execSequenceEntryFree (stack : Nat) (s : State) : Host.Outcome State Fault Refusal :=
  due "SEQUENCE_ENTRY_FREE" ((s.seqs.find? (fun e => e.2.1 == stack && e.2.2.1 == e.2.2.2)).map (fun e =>
    { s with seqs := mapDel s.seqs e.1 }))

/-! ### Issue -/

/-- The clock of a promise: at or after the issue clock (R142). -/
def promiseAt (s : State) : W64 := BitVec.ofNat 64 (min (s.clk.toNat + Config.freePromise s.fresh) (2 ^ 64 - 1))
/-- Whether an older store or atomic of a pack touches the ranges that an engine reads at issue, or one of its lines is closed (R125,
R126); a store that an open region buffers holds such a read until the region ends (log 104), and a request that a failed port has sent back to
one of its pages comes first (R426). -/
def sourceWaits (s : State) (p : Nat) (m : PMap) (rs : List (Nat × Nat)) : Bool :=
  let me := s.nextLoad p [p]
  let foot := physRanges m rs
  s.ops.any (fun o => s.before o me && !o.splat && !o.takesForward && overlaps o.foot foot) || heldStore s me rs || anyClosed s foot ||
    behindRelay s foot

/-- The completion of a copy: its arrival, then its decrement in order (R114, R123, R145, R149). -/
def copyDone (s : State) (id : Nat) : State :=
  match s.op id with
  | some o => (match o.pack, o.body with
    | some p, .copy c =>
      let blk := (s.pack p).block
      let t := { s with ops := s.ops.map (fun (q : Op) => if q.id == id then { q with done := true } else q) }
      let t := t.modBlock blk (fun k => { k with bars := modNth k.bars c.bar (fun b => { b with arr := b.arr + 1 }) })
      completeOp (endPhase (endExclusion s t blk c.stamp) blk c.bar) id
    | _, _ => completeOp s id)
  | none => s

/-- CPY and CPYR (R139 to R147, R286 to R288). -/
def copyAll (g : Guard) (out : Bool) (red : Option RFmt) (late gen : Bool) (gslot : BitVec 3) (bar : BitVec 4) (zs : BitVec 7)
    (org ext d : Fld) (m : MAddr) (cx : Cx) (s : State) : M State := do
  match s.acting cx g with
  | [] => return s
  | p :: _ =>
    let s ← endRegions s cx.slot cx.packs
    awaitCount s cx [p] .cpy
    let x := s.pack p
    let l := s.launchOf p
    let l0 := lowLane (s.active cx g p)
    let o := (List.range 5).map (fun a => (x.vget (org.toNat + a) l0).toInt)
    let b := (List.range 5).map (fun a => (x.vget (ext.toNat + a) l0).toNat)
    let z := if zs = 127 then 0 else (x.sget zs.toNat).toNat
    failIf (b.any (fun n => decide (4096 < n))) cOPFORMAT 0
    let _ ← match (regsFrom org.toNat 5 ++ regsFrom ext.toNat 5).find? x.tagB with
      | some r => raise cBNDUSE (BitVec.ofNat 64 r)
      | none => .ok ()
    let va := x.ea m 0
    failIf (va % 64 != 0) cMISALIGN (BitVec.ofNat 64 va)
    failIf (z % 16 != 0) cMISALIGN (BitVec.ofNat 64 z)
    let tc := Tc.courier x.core
    let who := waiterOf p cx.slot
    let wm ← probe s tc l.part l.pasid who (pagesOf va 64 false)
    waitIf (sourceWaits s p wm [(va, 64)]) s .interlock
    let s := closeWindow s (lineOf (wm.get va))
    let w : BitVec 512 := BitVec.ofNat 512 (memNat s (wm.get va) 64)
    failIf (!waybillOk w b red) cOPFORMAT (BitVec.ofNat 64 va)
    let _ ← match boxBeyond w z b l.sRound with
      | some a => raise cSCRATCH (BitVec.ofNat 64 a)
      | none => .ok ()
    let rs := boxRanges w (boxRowsOf w o b)
    let write := out || red.isSome
    let pages := rs.flatMap (fun r => pagesOf r.1 r.2 write)
    let mp ← probe s tc l.part l.pasid who pages
    let s := s.fillTc tc l.pasid (pagesOf va 64 false)
    let _ ← match (rs.flatMap (fun r => pagesOf r.1 r.2 true)).foldl (fun (q : Option Nat) a =>
        if isBus (mp.get a.1) then some (match q with | some c => min a.1 c | none => a.1) else q) none with
      | some a => if red.isSome then raise cXLATE (xlateInfo a true) else .ok ()
      | none => .ok ()
    let regs ← regionStacks s tc l.part l.pasid who mp (if red.isSome then regionsOf l.pasid rs else [])
    waitIf (!seqRoom s regs) s .engine
    if red.isSome then awaitTurn s p
    let (t, parts) := takeNumbers s regs
    let now := boxEmpty b && !gen
    let prom := if now then s.clk else promiseAt s
    let t := { t with fresh := if now then t.fresh else t.fresh + 1 }
    let id := t.nextOp
    let c : Copy := ⟨w, out, red, z, o, b, bar.toNat, if gen then some gslot.toNat else none, gen, false, prom, late && !l.det, l0,
      x.lclk.toNat, parts⟩
    let t := (addOp t cx id p .cpy mp [] [] (.copy c)).fillTc tc l.pasid pages
    let t := eachPack t cx.packs (fun _ y => y.sset (d.toNat - 384) prom)
    let t := endExclusion s t x.block x.lclk.toNat
    return (if now then copyDone t id else t)
/-- CPY (R286, R287). -/
def execCpy (g : Guard) (out late gen : Bool) (gslot : BitVec 3) (bar : BitVec 4) (zs : BitVec 7) (org ext d : Fld) (m : MAddr)
    (s : State) : Host.Outcome State Fault Refusal :=
  issue (.cpy g out late gen gslot bar zs org ext d m) s (copyAll g out none late gen gslot bar zs org ext d m)
/-- CPYR (R286 to R288, R362). -/
def execCpyr (g : Guard) (fmt : RFmt) (late gen : Bool) (gslot : BitVec 3) (bar : BitVec 4) (zs : BitVec 7) (org ext d : Fld)
    (m : MAddr) (s : State) : Host.Outcome State Fault Refusal :=
  issue (.cpyr g fmt late gen gslot bar zs org ext d m) s (copyAll g false (some fmt) late gen gslot bar zs org ext d m)

/-! ### Completion -/

/-- The words of a physical range that are poisoned. -/
def poisonIn (s : State) (rs : List (Nat × Nat)) : Bool := rs.any (fun r => (wordsOf r).any (fun w => poisoned s (4 * w)))
/-- A cause in the completion record of a launch (R407, R426). -/
def causeRecord (s : State) (launch cause : Nat) : State :=
  s.modLaunch launch (fun l => { l with summary := if l.summary = 0 then summaryOf cause false false 0 else l.summary })
/-- CAUSE 0x1A in the completion record of a launch (R407). -/
def memErrRecord (s : State) (launch : Nat) : State := causeRecord s launch cMEMERR
/-- The bytes of a copy into the scratchpad: a word that takes a poisoned byte is poisoned, one written whole with clean bytes is not, and one
written in part keeps its poison (R138, R407); what no port can bring is free (R426; log 4). -/
def copyIn (s : State) (o : Op) (p : Nat) (c : Copy) : State :=
  let x := s.pack p
  let rows := boxRowsOf c.wb c.org c.ext
  let n := nth 0 c.ext 0 * wSize c.wb
  let ix := s.coreIx x
  let src := fun (r : BoxRow) (i : Nat) =>
    if r.lo * wSize c.wb ≤ i ∧ i < r.hi * wSize c.wb then some (o.tr.get (r.addr + (i - r.lo * wSize c.wb))) else none
  let bad := rows.any (fun r => (List.range n).any (fun i => match src r i with | some ph => poisoned s ph | none => false))
  let put := rows.flatMap (fun r => (List.range n).map (fun i => (scrKey ix (boxPlace c.wb c.z r.row i), boxPlace c.wb c.z r.row i, src r i)))
  let marks := put.foldl (fun (m : NMap (Nat × Bool)) e =>
    let v := (mapGet m (e.1 / 4)).getD (0, false)
    mapPut m (e.1 / 4) (v.1 + 1, v.2 || (match e.2.2 with | some ph => poisoned s ph | none => false))) []
  let t := s.modBlock x.block (fun b =>
    let b := put.foldl (fun b e => scrWrite b ix e.2.1 (match e.2.2 with
      | some ph => if s.cutOff o ph then (Config.freeS (s.fresh + e.2.1)).setWidth 8 else memByte s ph
      | none => 0)) b
    { b with spoison := marks.foldl (fun m k => if k.2.2 then mapPut m k.1 () else if k.2.1 = 4 then mapDel m k.1 else m) b.spoison })
  if bad then memErrRecord t o.launch else t
/-- The bytes of a copy out of the scratchpad, in box order; poison goes with them into device memory, and is recorded wherever it goes (R138,
R146, R407). -/
def copyOut (s : State) (o : Op) (p : Nat) (c : Copy) : State :=
  let x := s.pack p
  let b := s.block x.block
  let ix := s.coreIx x
  let put := (boxRowsOf c.wb c.org c.ext).flatMap (fun r =>
    (List.range ((r.hi - r.lo) * wSize c.wb)).map (fun i =>
      let off := boxPlace c.wb c.z r.row (r.lo * wSize c.wb + i)
      (o.tr.get (r.addr + i), scrRead b ix off, (mapGet b.spoison (scrKey ix off / 4)).isSome)))
  let t := engineWrite s ((put.filter (fun e => !s.cutOff o e.1)).map (fun e => (e.1, e.2.1)))
  let bad := put.filter (·.2.2)
  let t := (bad.filter (fun e => !isBus e.1)).foldl (fun t e => setPoison t (e.1 / 4) true) t
  if bad.isEmpty then t else memErrRecord t o.launch
/-- COPY_COMPLETE: the copy's bytes move, or its parts have all been applied; it arrives and its decrement retires in order (R125, R137,
R138, R145, R147). A copy that is to be checked at its promise does not complete after it unchecked (R143). -/
def execCopyComplete (op : Nat) (s : State) : Host.Outcome State Fault Refusal :=
  due "COPY_COMPLETE" (match s.op op with
    | none => none
    | some o => (match o.pack, o.body with
      | some p, .copy c =>
        let foot := physRanges o.tr (boxRanges c.wb (boxRowsOf c.wb c.org c.ext))
        if o.done || c.held || c.discarded || queuedBehind s o || (c.late && decide (c.promise < s.clk)) then none
        else if c.red.isSome then (if c.parts.all (·.applied) then some (copyDone s op) else none)
        else if heldBack s o foot || anyClosed s foot then none
        else
          let s := closeWindows s (linesOf foot)
          let t := if c.out then copyOut s o p c else copyIn s o p c
          let t := if foot.any (fun r => s.cutOff o r.1) then causeRecord { t with fresh := t.fresh + 2 ^ 20 } o.launch cXLATE else t
          some (copyDone t op)
      | _, _ => none))

/-- A word of DRAM whose lines the L2 has dropped, read and written where the base die acts. -/
def dieNat (s : State) (ph n : Nat) : Nat := ofBytes ((List.range n).map (fun i => ramRead s (ph + i)))
/-- Lines of ranges prepared for the base die: windows closed, ownership revoked, every L1 copy dropped, dirty words
written, the L2 lines dropped (R126). -/
def prepare (s : State) (rs : List (Nat × Nat)) : State :=
  let ls := linesOf rs
  let s := closeWindows s ls
  let s := { s with mem := { s.mem with owner := s.mem.owner.filter (fun e => !ls.contains (e.1 / 32)) } }
  evictLines (dropLines s none ls) ls
/-- The element format of a reducing copy. -/
def redFmt (r : RFmt) : FFmt := match r with | .f32 => F32 | .bf16 => BF16
/-- One element's reducing add in DRAM, poison carried (R146, R407). -/
def dieAdd (s : State) (f : FFmt) (n ph : Nat) (v : FVal) (bad : Bool) : State :=
  let e := f.read (dieNat s ph n)
  let s := ramWrites s ph (leBytes (f.write .rn false 0 (fAdd .rn e v)) n)
  if bad then setPoison s (ph / 4) true else s
/-- The bank slots that a unit defers for a piece of work while its stack's PERMBANKS is below 32: free, and counted in DEFERS (R417,
R418; log 4). -/
def deferSlots (s : State) (unit : Nat) : State × Nat :=
  let st := unit / 32
  let n := if nth 32 s.dev.perm st < 32 then Config.freeDefers s.fresh else 0
  ({ s with fresh := s.fresh + 1,
            dev := { s.dev with defers := modNth s.dev.defers st (fun d => BitVec.ofNat 32 (min 0xFFFFFFFF (d.toNat + n))) } }, n)
/-- CPYR_PART_APPLY: a region's part in its turn, its adds in box order; with the first part the whole range is prepared, and it stays
closed until the copy completes; a discarded copy's part retires empty (R126, R128, R146, R147, R153). -/
def execCpyrPartApply (op region : Nat) (s : State) : Host.Outcome State Fault Refusal :=
  due "CPYR_PART_APPLY" (match s.op op with
    | none => none
    | some o => (match o.body with
      | .copy c =>
        (match c.parts.find? (fun q => q.region == region && partTurn s q), c.red with
        | some q, some fmt =>
          let parts := c.parts.map (fun r => if r.region == region then { r with applied := true } else r)
          if c.discarded then
            if o.pack.isSome then none else
            let t := passPart s q
            some (if parts.all (·.applied) then { t with ops := t.ops.filter (fun r => r.id != op) }
                  else t.modOp op (fun o => { o with body := .copy { c with parts := parts } }))
          else
            (match o.pack with
            | none => none
            | some p =>
              let x := s.pack p
              let pasid := (s.launch o.launch).pasid
              let n := wSize c.wb
              let all := (boxRowsOf c.wb c.org c.ext).flatMap (fun r => (List.range (r.hi - r.lo)).map (fun i =>
                (r.addr + n * i, boxPlace c.wb c.z r.row (n * (r.lo + i)))))
              let mine := all.filter (fun e => seqKey pasid e.1 == region)
              let foot := physRanges o.tr (boxRanges c.wb (boxRowsOf c.wb c.org c.ext))
              let first := !c.parts.any (·.applied)
              if o.done || c.held || queuedBehind s o || (first && heldBack s o foot) then none
              else
                let b := s.block x.block
                let ix := s.coreIx x
                let t := if first then (prepare s foot).modOp op (fun o => { o with shut := foot }) else s
                let bad := fun (t : State) (e : Nat × Nat) => poisoned t (o.tr.get e.1) || (mapGet b.spoison (scrKey ix e.2 / 4)).isSome
                let t := if mine.any (bad t) then memErrRecord t o.launch else t
                let t := ((mine.map (fun e => unitOf (o.tr.get e.1))).eraseDups).foldl (fun t u => (deferSlots t u).1) t
                let t := mine.foldl (fun t e => dieAdd t (redFmt fmt) n (o.tr.get e.1) ((redFmt fmt).read (scrNat b ix e.2 n)) (bad t e)) t
                some ((passPart t q).modOp op (fun o => { o with body := .copy { c with parts := parts } })))
        | _, _ => none)
      | _ => none))

/-- A discarded command's op: complete at once, its parts kept to retire in their turns (R147, R153). -/
def discardCopy (s : State) (o : Op) (c : Copy) : State :=
  let s := s.modOp o.id (fun o => { o with body := .copy { c with held := false, discarded := true } })
  let s := if c.parts.isEmpty then s
    else { s with ops := s.ops ++ [{ id := s.nextOp, grp := s.nextOp, pack := none, launch := o.launch, k := none,
                                     body := .copy { c with held := false, discarded := true } }], nextOp := s.nextOp + 1 }
  completeOp s o.id
/-- PROMISE_CHECK: a copy not complete at its promise raises LATECOURIER in the path that holds its leader lane: now at an
SLPT or BWAIT, else at that path's next clause header (R143). -/
def execPromiseCheck (op : Nat) (s : State) : Host.Outcome State Fault Refusal :=
  due "PROMISE_CHECK" (match s.op op with
    | none => none
    | some o => (match o.pack, o.body with
      | some p, .copy c =>
        if o.done || !c.late || c.discarded || decide (s.clk < c.promise) then none
        else
          let s := s.modOp op (fun o => { o with body := .copy { c with late := false } })
          let info : W64 := BitVec.ofNat 64 (c.bar + 256 * (c.promise.toNat % 2 ^ 56))
          let x := s.pack p
          let m : Lanes := 1#16 <<< c.lane
          let holds := fun (sl : Slot) => match sl.path with | some q => q.mask &&& m != 0 | none => false
          let waits := fun (sl : Slot) => holds sl && (match sl.stall with | some .slpt => true | some (.bwait _) => true | _ => false)
          let k := if waits x.lead then some 0 else if waits x.heel then some 1 else none
          let e : Pending := { cause := cLATE, info := info, lanes := m, slot := k }
          let t := s.modPack p (fun x => { x with pending := x.pending ++ [e] })
          some (match k with | some k => takeNow t p k e | none => t)
      | _, _ => none))

end Sys2Proof.Machine
end

