-- ==== Sys2Proof/Machine/Matrix.lean ====
section
/-!
DEFINITION. The matrix engine: MMA, tiles, the weight buffer, passes and restart sections (R155 to R170, R293 to R298).
-/
namespace Sys2Proof.Machine
open Sys2Proof

/-! ### Teams, tiles and reservation entries -/

/-- Where tile `a` of a pack's team stands among the block's tiles (R155). -/
def State.tileIx (s : State) (p a : Nat) : Nat := (s.teamOf p).2 * (s.launchOf p).tiles + a
/-- A tile of a pack's block. -/
def State.tile (s : State) (p t : Nat) : Tile := nth {} (s.blockOf p).tiles t
/-- `s` with a tile of a pack's block changed. -/
def State.modTile (s : State) (p t : Nat) (f : Tile → Tile) : State :=
  s.modBlock (s.pack p).block (fun b => { b with tiles := modNth b.tiles t f })
/-- A row of a tile written: +0 is not listed (R155). -/
def Tile.setRow (t : Tile) (row : Nat) (vs : List W32) : Tile :=
  { t with el := vs.zipIdx.foldl (fun m e => mapWrite 0 m (64 * row + e.2) e.1) t.el }
/-- An element of a tile. -/
def Tile.get (t : Tile) (row col : Nat) : W32 := mapRead 0 t.el (64 * row + col)

/-- Whether the team's older entries are complete (R167). -/
def entryReady (s : State) (o : Op) : Bool :=
  !s.ops.any (fun q => decide (q.id < o.id) && q.isEntry && !q.done && (match q.pack, o.pack with
    | some a, some b => s.teamOf a == s.teamOf b | _, _ => false))
/-- The clock at which an MMA became ready is noted (R167). -/
def markReady (s : State) : State :=
  { s with ops := s.ops.map (fun o => match o.body with
      | .mma m => if m.since.isNone && !o.done && entryReady s o then { o with body := .mma { m with since := some s.clk.toNat } } else o
      | _ => o) }
/-- An entry taken by a team or pack: an operation of the first member, and a share for every other member, each counted on
K.MX with its own clause's flag (R164, R167, R294). -/
def addEntry (s : State) (cx : Cx) (parts : List TPart) (tr : PMap) (ds : List Nat) (body : Body) : State :=
  match parts with
  | [] => s
  | t :: ts =>
    let main := s.nextOp
    let own := fun (q : TPart) => if cx.packs.contains q.pack then cx else s.partCx cx q.pack q.slot
    let s' := addOp s (own t) main t.pack .mx tr [] ds body
    markReady (ts.foldl (fun r q => addOp r (own q) main q.pack .mx [] [] ds (.mate main)) s')
/-- An entry to be taken: none free, or a counter or a flag full, and the instruction waits (R114, R167, R189). -/
def awaitEntry (s : State) (cx : Cx) (parts : List TPart) : M Unit := do
  waitIf (parts.any (fun q => decide (63 ≤ nth 0 (s.pack q.pack).k KCls.mx.ix))) s .full
  waitIf (parts.any (fun q => !canCount s (if cx.packs.contains q.pack then cx else s.partCx cx q.pack q.slot) q.pack .mx)) s .interlock
  waitIf (decide (32 ≤ (entriesOn s (engineOf (s.pack ((parts.map (·.pack)).headD 0)).core)).length)) s .engine
/-- The parts of an instruction that the members issue together, first a member with an active lane. -/
def actingFirst (parts : List TPart) : List TPart :=
  parts.filter (fun t => t.mask != 0) ++ parts.filter (fun t => t.mask == 0)
/-- Parts in ascending pack order. -/
def sortParts (parts : List TPart) : List TPart :=
  parts.foldl (fun acc t => acc.filter (fun u => decide (u.pack < t.pack)) ++ t :: acc.filter (fun u => decide (t.pack < u.pack))) []

/-! ### MMA -/

/-- Fields of a format word (R158). -/
def fFmtOf (w : W64) : Nat := bitsAt w 0 4
def fBlock (w : W64) : Nat := if w.getLsbD 4 then 16 else 32
def fSp (w : W64) : Bool := w.getLsbD 8
def fScv (w : W64) : Nat := bitsAt w 9 9
def fSel (w : W64) : Nat := bitsAt w 18 8
/-- Whether a format takes scales: the MX formats and L6 (R46, R47). -/
def fScaled (w : W64) : Bool := decide (4 ≤ fFmtOf w) && decide (fFmtOf w ≤ 7)
/-- The class of a format (R163): only a pair of one class is legal. -/
def fClass' (f : Nat) : Nat := if f ≤ 1 then 0 else if f ≤ 5 then 1 else f
/-- Bits of an element. -/
def fBits (f : Nat) : Nat := if f ≤ 1 then 16 else if f ≤ 5 then 8 else if f = 6 then 4 else 6
/-- Bytes that `n` packed elements take (R45). -/
def packBytes (f n : Nat) : Nat := n * fBits f / 8
/-- Scales an operand of `rows` rows or columns takes (R159). -/
def nScales (w : W64) (rows : Nat) : Nat := if fScaled w then rows * (32 / fBlock w) else 0
/-- The registers a scale range touches in a team of width `tw` (R159). -/
def scaleRegs (w : W64) (rows tw : Nat) : List Nat :=
  if nScales w rows = 0 then []
  else (List.range ((fSel w + nScales w rows - 1) / (4 * tw) - fSel w / (4 * tw) + 1)).map (fun i => fScv w + fSel w / (4 * tw) + i)
/-- The member pack and lane of the team lane that holds the scale at position `p`, and its register (R159). -/
def scaleAt (team : List Nat) (w : W64) (p : Nat) : Nat × Nat × Nat :=
  let tw := 16 * team.length
  let tl := p % (4 * tw) / 4
  (nth 0 team (tl / 16), tl % 16, fScv w + p / (4 * tw))
/-- Whether a lane of a pack holds a thread (R8). -/
def State.present (s : State) (p l : Nat) : Bool := (s.pack p).present.getLsbD l
/-- The scale bytes of an operand: block j at position SEL + j (R159). A scale in an absent lane, which affects no result, is a free
value (R8; log 100). -/
def scaleBytes (s : State) (team : List Nat) (w : W64) (rows free : Nat) : List Nat :=
  (List.range (nScales w rows)).map (fun j =>
    let p := fSel w + j
    let q := scaleAt team w p
    if s.present q.1 q.2.1 then bitsAt ((s.pack q.1).vget q.2.2 q.2.1) (8 * (p % 4)) 8
    else (Config.freeV (s.fresh + free + j)).toNat % 256)
/-- Free values that an operand's scales take: one for each in an absent lane, counted as all of them. -/
def scaleFree (s : State) (team : List Nat) (w : W64) (rows : Nat) : Nat :=
  if (List.range (nScales w rows)).all (fun j => let q := scaleAt team w (fSel w + j); s.present q.1 q.2.1) then 0 else nScales w rows
/-- The scratchpad rows of an operand: base, pitch, rows, bytes of a row (R293). -/
def operandRows (w : W64) (z pitch : Nat) (col : Bool) (rows rowEls colRows : Nat) : Nat × Nat × Nat × Nat :=
  if col then (z, pitch, colRows, 128) else (z, pitch, rows, packBytes (fFmtOf w) rowEls)
/-- The lowest byte of operand rows at or beyond `top`. -/
def rowsBeyond (r : Nat × Nat × Nat × Nat) (top : Nat) : Option Nat :=
  (List.range r.2.2.1).foldl (fun m i =>
    let a := r.1 + i * r.2.1
    if top < a + r.2.2.2 then some (match m with | some b => min b (max a top) | none => max a top) else m) none
/-- Bytes of a weight-buffer column (R162). -/
def wbCol (w : W64) : Nat := packBytes (fFmtOf w) (if fSp w then 16 else 32) + if fSp w then 4 else 0

/-- The rules of format words and operands, in the order of the table "MMA operand faults", up to the scratchpad range
(R158 to R163). -/
def formatsOk (fa fb : W64) (pa zb pb : Nat) (wb orda ordb : Bool) (wblen : Nat) : Bool :=
  let word := fun (w : W64) => bitsAt w 26 38 == 0 && bitsAt w 5 3 == 0 && decide (fFmtOf w ≤ 7) && (!(w.getLsbD 4) || fFmtOf w == 7) &&
    (decide (4 ≤ fFmtOf w) || (fScv w == 0 && fSel w == 0))
  let col := fun (w : W64) (p : Nat) => decide (fFmtOf w ≤ 1) && p % 128 == 0
  word fa && word fb && !fSp fa && fClass' (fFmtOf fa) == fClass' (fFmtOf fb) &&
  (!orda || col fa pa) && (!ordb || wb || col fb pb) &&
  (if wb then !ordb && decide (zb + 64 * wbCol fb ≤ wblen) && (!fSp fb || decide (fFmtOf fb ≤ 5)) else !fSp fb) &&
  pa % 16 == 0 && (wb || pb % 16 == 0)
/-- MMA over the contributed masks of every arrived member (R157, R163, R294). TAGOF of an operand is B where any register of its scale
range is B in any member that contributes, whichever lanes hold scales (log 100). -/
def runMma (cx : Cx) (bsrc orda ordb : Bool) (d a : Fld) (za : BitVec 19) (pa : BitVec 12) (zb : BitVec 20) (pb : BitVec 12)
    (parts : List TPart) (s : State) : M State := do
  let parts := actingFirst (sortParts parts)
  match parts with
  | [] => return s
  | t :: _ =>
    if t.mask = 0 then return s
    let p := t.pack
    let x := s.pack p
    let l := s.launchOf p
    let team := s.team p
    let tw := l.teamW
    awaitEntry s cx parts
    let fa := x.sget (a.toNat - 384)
    let fb := x.sget (a.toNat - 383)
    let regs := scaleRegs fa tw tw ++ scaleRegs fb 64 tw
    failIf (regs.any (fun r => decide (l.allocV ≤ r)) || decide (l.tiles ≤ d.toNat)) cILLOP cx.at
    waitIf (s.ops.any (fun o => !o.done && parts.any (fun q => o.pack == some q.pack) && o.dv.any regs.contains)) s .interlock
    failIf (!formatsOk fa fb pa.toNat zb.toNat pb.toNat bsrc orda ordb l.wblen) cOPFORMAT 0
    let ra := operandRows fa za.toNat pa.toNat orda tw 32 32
    let rb := operandRows fb zb.toNat pb.toNat ordb 32 64 64
    let out := [rowsBeyond ra l.sRound, if bsrc then none else rowsBeyond rb l.sRound].filterMap id
    let _ ← match out with
      | [] => .ok ()
      | v :: vs => raise cSCRATCH (BitVec.ofNat 64 (vs.foldl min v))
    let tagB := parts.any (fun q => regs.any (s.pack q.pack).tagB)
    let na := scaleFree s team fa tw
    let s' := { s with fresh := s.fresh + na + scaleFree s team fb 64 }
    return addEntry s' cx parts [] [] (.mma ⟨parts.map (fun q => (q.pack, q.mask)), s.tileIx p d.toNat, fa, fb, za.toNat, pa.toNat,
      zb.toNat, pb.toNat, bsrc, orda, ordb, scaleBytes s team fa tw 0, scaleBytes s team fb 64 na, tagB,
      if fFmtOf fa ≤ 1 then 2 else 1, none, false⟩)
/-- MMA (R157, R293, R294). -/
def execMma (g : Guard) (bsrc orda ordb : Bool) (d a : Fld) (za : BitVec 19) (pa : BitVec 12) (zb : BitVec 20) (pb : BitVec 12)
    (s : State) : Host.Outcome State Fault Refusal :=
  issue (.mma g bsrc orda ordb d a za pa zb pb) s (fun cx =>
    collective (.mma g bsrc orda ordb d a za pa zb pb) g (runMma cx bsrc orda ordb d a za pa zb pb) cx)

/-- Element `i` of packed elements, over a reader of bytes (R45). -/
def packedEl (f : Nat) (rd : Nat → BitVec 8) (i : Nat) : Nat :=
  if f ≤ 1 then ofBytes [rd (2 * i), rd (2 * i + 1)]
  else if f ≤ 5 then (rd i).toNat
  else if f = 6 then (rd (i / 2)).toNat / 2 ^ (4 * (i % 2)) % 16
  else ofBytes [rd (3 * (i / 4)), rd (3 * (i / 4) + 1), rd (3 * (i / 4) + 2)] / 2 ^ (6 * (i % 4)) % 64
/-- VALUE of an element (R46, R157). -/
def elValue (f x : Nat) : FVal :=
  if f = 0 then BF16.read x else if f = 1 then F16.read x else if f = 2 ∨ f = 4 then E4M3.read x
  else if f = 3 ∨ f = 5 then E5M2.read x else E2M1.read x
/-- A scale (R46). -/
def scaleValue (e : Nat) : FVal := if e = 255 then .nan else .fin false 1 ((e : Int) - 127)
/-- PROD of R157: elements and their scale bytes. -/
def mmaProd (fa fb : W64) (a ea b eb : Nat) : FVal :=
  if fFmtOf fa = 7 then l6Prod a ea b eb
  else
    let v := fun (w : W64) (x e : Nat) => if fScaled w then fMul (elValue (fFmtOf w) x) (scaleValue e) else elValue (fFmtOf w) x
    fMul (v fa a ea) (v fb b eb)
/-- The two positions that a 2:4 selector code gives the elements of a group (R162). -/
def spPlaces (c : Nat) : Option (Nat × Nat) :=
  match c with | 0 => some (0, 1) | 1 => some (0, 2) | 2 => some (0, 3) | 3 => some (1, 2) | 4 => some (1, 3) | 5 => some (2, 3) | _ => none
/-- A byte of the weight buffer of a partition's engines. -/
def wbKey (part off : Nat) : Nat := part * 2 ^ 20 + off
/-- A byte of an operand in the scratchpad; that of a poisoned word is a free value (R407; log 101). -/
def scrOperand (s : State) (b : Block) (ix off : Nat) : BitVec 8 :=
  if (mapGet b.spoison (scrKey ix off / 4)).isSome then (Config.freeS (s.fresh + off)).setWidth 8 else scrRead b ix off
/-- A byte of an operand in the weight buffer; that of a poisoned word is a free value (R407; log 101). -/
def wbOperand (s : State) (part off : Nat) : BitVec 8 :=
  if (mapGet s.wpoison (wbKey part off / 4)).isSome then (Config.freeS (s.fresh + 2 ^ 20 + off)).setWidth 8
  else mapRead 0 s.wbuf (wbKey part off)
/-- Operand A(L, k) (R160). -/
def mmaA (s : State) (b : Block) (ix : Nat) (m : MmaOp) (l k : Nat) : Nat :=
  let f := fFmtOf m.fa
  if m.orda then ofBytes [scrOperand s b ix (swzOff m.za m.pa k (2 * l)), scrOperand s b ix (swzOff m.za m.pa k (2 * l + 1))]
  else packedEl f (fun i => scrOperand s b ix (m.za + l * m.pa + i)) k
/-- Operand B(k, n) (R160 to R162). -/
def mmaB (s : State) (part off : Nat) (b : Block) (ix : Nat) (m : MmaOp) (k n : Nat) : Nat :=
  let f := fFmtOf m.fb
  if m.wb then
    let rd := fun i => wbOperand s part (off + m.zb + n * wbCol m.fb + i)
    if fSp m.fb then
      let sel := (rd (packBytes f 16 + k / 8)).toNat / 2 ^ (4 * (k / 4 % 2)) % 16
      match spPlaces sel with
      | some (i, j) => if k % 4 = i then packedEl f rd (2 * (k / 4)) else if k % 4 = j then packedEl f rd (2 * (k / 4) + 1) else 0
      | none => 0
    else packedEl f rd k
  else if m.ordb then ofBytes [scrOperand s b ix (swzOff m.zb m.pb n (2 * k)), scrOperand s b ix (swzOff m.zb m.pb n (2 * k + 1))]
  else packedEl f (fun i => scrOperand s b ix (m.zb + k * m.pb + i)) n
/-- The tile after an MMA: every row of the union, BLOCKSUM of each element (R56, R157). -/
def mmaTile (s : State) (p : Nat) (m : MmaOp) : Tile :=
  let x := s.pack p
  let l := s.launchOf p
  let b := s.block x.block
  let ix := s.coreIx x
  let t0 := nth {} b.tiles m.tile
  let rows := m.parts.flatMap (fun q => (lanesOf q.2).map (fun l => s.teamLane q.1 l))
  let cell := fun (row n : Nat) => blockSum (t0.get row n) ((List.range 32).map (fun k =>
    mmaProd m.fa m.fb (mmaA s b ix m row k) (nth 0 m.sa (row * (32 / fBlock m.fa) + k / fBlock m.fa))
      (mmaB s l.part l.wboff b ix m k n) (nth 0 m.sb (n * (32 / fBlock m.fb) + k / fBlock m.fb))))
  rows.foldl (fun t row =>
    let vs := (List.range 64).map (cell row)
    let t := t.setRow row (vs.map (·.1))
    { t with inexact := t.inexact || vs.any (·.2) }) { t0 with tagB := t0.tagB || m.tagB }

/-! ### MZERO, MLDA, MSTA, WBLD -/

/-- Whether masks cover every present lane of the team (R164). -/
def coversTeam (s : State) (parts : List TPart) : Bool :=
  match parts with
  | [] => false
  | t :: _ => (s.team t.pack).all (fun q =>
      let m : Lanes := match parts.find? (fun u => u.pack == q) with | some u => u.mask | none => 0
      (s.pack q).present &&& m == (s.pack q).present)
/-- The rows of the team lanes of masks, with the lane that names each. -/
def partRows (s : State) (parts : List TPart) : List (Nat × Nat × Nat) :=
  parts.flatMap (fun t => (lanesOf t.mask).map (fun l => (t.pack, l, s.teamLane t.pack l)))
/-- MZERO (R164, R295). -/
def execMzero (g : Guard) (d : Fld) (s : State) : Host.Outcome State Fault Refusal :=
  issue (.mzero g d) s (fun cx s => do
    let parts := actingFirst (partsOf s cx g)
    if !s.anyActive cx g then return s
    let p := (parts.map (·.pack)).headD 0
    awaitEntry s cx parts
    failIf (decide ((s.launchOf p).tiles ≤ d.toNat)) cILLOP cx.at
    return addEntry s cx parts [] [] (.mzero (s.tileIx p d.toNat) ((partRows s parts).map (·.2.2)) (coversTeam s parts)))
/-- The row bases of a tile-row instruction, by member (R295). -/
def rowBases (s : State) (m : MAddr) (rb : Nat) (parts : List TPart) : List (Nat × List Acc) :=
  parts.filterMap (fun t => if t.mask = 0 then none else some (t.pack, (lanesOf t.mask).map (fun l =>
    ⟨l, (s.pack t.pack).ea m l + if m.index = 511 then s.teamLane t.pack l * rb else 0⟩)))
/-- Whether a tile will have TAG B once the outstanding operations of its team, which act in their order, have acted (R164, R179,
R295). -/
def State.tileB (s : State) (p t : Nat) : Bool :=
  let mine := s.ops.filter (fun o => !o.done && (match o.pack with | some q => (s.pack q).block == (s.pack p).block | none => false))
  mine.foldl (fun b o => match o.body with
    | .mma m => if m.tile = t then b || m.tagB else b
    | .mlda u _ _ bt _ => if u = t then b || bt else b
    | .mzero u _ all => if u = t && all then false else b
    | _ => b) (s.tile p t).tagB
/-- The checks and translations of MLDA and MSTA in the order of R296, and the rows with their addresses. -/
def rowChecks (cx : Cx) (s : State) (d : Nat) (m : MAddr) (rb : Nat) (write : Bool) (bnd : Bool) (parts : List TPart) :
    M (PMap × List (Nat × Nat)) := do
  let scr := m.base == 127
  let p := (parts.map (·.pack)).headD 0
  failIf (decide ((s.launchOf p).tiles ≤ d)) cILLOP cx.at
  let as := rowBases s m rb parts
  misaligned as 16
  if scr then
    raiseIn cSCRATCH (as.filterMap (fun e =>
      let top := (s.launchOf e.1).sRound
      (rowsMin (e.2.map (·.va)) rb top).map (fun b => (e.1, BitVec.ofNat 64 b))))
  raiseIn cBNDUSE (if bnd && !scr && s.tileB p (s.tileIx p d) then as.map (fun e => (e.1, BitVec.ofNat 64 d)) else [])
  bndIndex s (as.map (·.1)) m []
  let ms ← if scr then .ok [] else probeEach s cx.slot (rowPages as rb write)
  return (ms.flatMap (·.2), as.flatMap (fun e => e.2.map (fun a => (s.teamLane e.1 a.lane, a.va))))
where
  /-- The pages of members' rows. -/
  rowPages (as : List (Nat × List Acc)) (rb : Nat) (write : Bool) : List (Nat × List (Nat × Bool)) :=
    as.map (fun e => (e.1, e.2.flatMap (fun a => pagesOf a.va rb write)))
  /-- The lowest byte of rows at or beyond the reachable size. -/
  rowsMin (bases : List Nat) (rb top : Nat) : Option Nat :=
    bases.foldl (fun m a => if top < a + rb then some (match m with | some b => min b (max a top) | none => max a top) else m) none
/-- MLDA (R164, R295, R296). -/
def execMlda (g : Guard) (bt : Bool) (pol : Policy) (d : Fld) (m : MAddr) (s : State) : Host.Outcome State Fault Refusal :=
  issue (.mlda g bt pol d m) s (fun cx s => do
    if !s.anyActive cx g then return s
    let parts := actingFirst (partsOf s cx g)
    awaitEntry s cx parts
    let (tr, rows) ← rowChecks cx s d.toNat m 256 false false parts
    let s := if m.base = 127 then s else s.fillEach (rowChecks.rowPages (rowBases s m 256 parts) 256 false)
    let p := (parts.map (·.pack)).headD 0
    return addEntry s cx parts tr [] (.mlda (s.tileIx p d.toNat) rows (m.base == 127) bt (coversTeam s parts)))
/-- MSTA (R164, R180, R295, R296). -/
def execMsta (g : Guard) (bf bt : Bool) (pol : Policy) (tile : BitVec 3) (d : Fld) (m : MAddr) (s : State) :
    Host.Outcome State Fault Refusal :=
  issue (.msta g bf bt pol tile d m) s (fun cx s => do
    if !s.anyActive cx g then return s
    let s ← if m.base = 127 then .ok s else endRegions s cx.slot cx.packs
    let parts := actingFirst (partsOf s cx g)
    awaitEntry s cx parts
    let rb := if bf then 128 else 256
    let (tr, rows) ← rowChecks cx s tile.toNat m rb true (!bt) parts
    let s := if m.base = 127 then s else s.fillEach (rowChecks.rowPages (rowBases s m rb parts) rb true)
    let p := (parts.map (·.pack)).headD 0
    return addEntry s cx parts tr [d.toNat - 384] (.msta (s.tileIx p tile.toNat) rows (m.base == 127) bf (d.toNat - 384)))
/-- WBLD (R162, R297). -/
def execWbld (g : Guard) (d : Fld) (m : MAddr) (s : State) : Host.Outcome State Fault Refusal :=
  issue (.wbld g d m) s (fun cx s => do
    match s.acting cx g with
    | [] => return s
    | p :: _ =>
      let part : TPart := ⟨p, cx.slot, 0xFFFF⟩
      awaitEntry s cx [part]
      let x := s.pack p
      let l := s.launchOf p
      let len := bitsAt (x.srcs d) 0 32
      let off := bitsAt (x.srcs d) 32 32
      failIf (l.wblen == 0 || len % 16 != 0 || off % 16 != 0 || decide (l.wblen < off + len)) cOPFORMAT 0
      let va := x.ea m 0
      failIf (va % 16 != 0) cMISALIGN (BitVec.ofNat 64 va)
      failIf (decide (2 ^ 57 ≤ va)) cXLATE (xlateInfo va false)
      let tr ← probe s (.engine (engineOf x.core)) l.part l.pasid (waiterOf p cx.slot) (pagesOf va len false)
      if len = 0 then return addDone s cx p .mx (.wbld va off 0)
      return (addEntry s cx [part] tr [] (.wbld va off len)).fillTc (.engine (engineOf x.core)) l.pasid (pagesOf va len false))

/-! ### Restart sections -/

/-- MSEC (R168, R298, R376). -/
def execMsec (g : Guard) (tgt : BitVec 24) (s : State) : Host.Outcome State Fault Refusal :=
  issue (.msec g tgt) s (fun cx s => do
    let ps := cx.packs.filter (s.ucond cx g)
    if ps.isEmpty then return s
    raiseIn cILLOP ((ps.filter (fun p => (s.pack p).inUserHandler)).map (fun p => (p, cx.at)))
    let t := cx.target tgt
    failIf (!within t) cILLTGT (offInfo t)
    let w ← fetchCode s (cx.packs.headD 0) cx.slot t.toNat
    failIf (!isHeader w) cILLTGT (offInfo t)
    return eachPack s ps (fun p x => { x with
      sect := some ⟨t.toNat, (s.path p cx.slot).mask, (s.path p cx.slot).rpc, kUnits x.kennel, x.lclk⟩ }))
/-- MEND (R168, R298, R376). -/
def execMend (g : Guard) (s : State) : Host.Outcome State Fault Refusal :=
  issue (.mend g) s (fun cx s => do
    let ps := cx.packs.filter (s.ucond cx g)
    raiseIn cILLOP ((ps.filter (fun p => (s.pack p).inUserHandler)).map (fun p => (p, cx.at)))
    return eachPack s ps (fun _ x => { x with sect := none }))

/-! ### Passes and completions -/

/-- The clock from which an entry counts as waiting long. -/
def MmaOp.old (m : MmaOp) (clk : Nat) : Bool := m.aged || (match m.since with | some t => decide (t + 2048 ≤ clk) | none => false)
/-- The entry the arbiter grants: the oldest that has waited 2,048 clocks ready, else the oldest of the highest priority (R167, R355).
Only an MMA has passes (R166): the other entries take no grant, age no further and complete once ready (log 102). Of several that have
waited 2,048 clocks the oldest is the one longest ready, of equals the one taken earlier (DESIGN CHOICE, log 116). -/
def grantee (s : State) (e : Nat) : Option Op :=
  let prio := fun (o : Op) => show Nat from (s.launch o.launch).prio
  let cand := (entriesOn s e).filter (fun o => entryReady s o && (match o.body with | .mma m => decide (0 < m.passes) | _ => false))
  let aged := cand.filter (fun o => match o.body with | .mma m => m.old s.clk.toNat | _ => false)
  match aged with
  | a :: as =>
    let since := fun (o : Op) => show Nat from match o.body with | .mma m => m.since.getD 0 | _ => 0
    some (as.foldl (fun (b o : Op) => if since o < since b then o else b) a)
  | [] => (match cand with
    | [] => none
    | c :: cs => some (cs.foldl (fun b o => if prio b < prio o then o else b) c))
/-- MATRIX_PASS_GRANT (R166, R167). -/
def execMatrixPassGrant (engine : Nat) (s : State) : Host.Outcome State Fault Refusal :=
  due "MATRIX_PASS_GRANT" ((grantee s engine).map (fun o =>
    ({ s with dev := { s.dev with inPass := mapPut s.dev.inPass engine o.id } } : State).modOp o.id (fun o => match o.body with
    | .mma m => { o with body := .mma { m with passes := m.passes - 1 } }
    | _ => o)))
/-- MATRIX_ENTRY_AGED: an entry has been ready for 2,048 clocks (R167). -/
def execMatrixEntryAged (op : Nat) (s : State) : Host.Outcome State Fault Refusal :=
  due "MATRIX_ENTRY_AGED" (match s.op op with
    | some o => (match o.body with
      | .mma m => if !o.done && !m.aged && m.old s.clk.toNat then some (s.modOp op (fun o => { o with body := .mma { m with aged := true } })) else none
      | _ => none)
    | none => none)
/-- MMA_COMPLETE: the passes are done; the operands are read, all in this step (R165 lets it be any time since the issue; log 103), the
rows are written and every member's decrement retires (R56, R114, R157, R294). -/
def execMmaComplete (op : Nat) (s : State) : Host.Outcome State Fault Refusal :=
  due "MMA_COMPLETE" (match s.op op with
    | some o => (match o.pack, o.body with
      | some p, .mma m =>
        if o.done || decide (0 < m.passes) || !entryReady s o then none
        else
          let free := if (s.blockOf p).spoison.isEmpty && s.wpoison.isEmpty then 0 else 2 ^ 21
          some (markReady (completeOp { s.modTile p m.tile (fun _ => mmaTile s p m) with fresh := s.fresh + free } op))
      | _, _ => none)
    | none => none)
/-- The ranges of tile rows in global memory. -/
def rowRanges (o : Op) (rows : List (Nat × Nat)) (rb : Nat) : List (Nat × Nat) :=
  physRanges o.tr (rows.map (fun r => (r.2, rb)))
/-- A tile's status cleared by a write of all its rows (R164). -/
def Tile.fresh (t : Tile) (all : Bool) : Tile := if all then { t with inexact := false, lost := false } else t
/-- The status word of a tile (R164). -/
def Tile.status (t : Tile) : W64 := BitVec.ofNat 64 ((if t.inexact then 1 else 0) + (if t.tagB then 2 else 0) + if t.lost then 4 else 0)
/-- MLDA's rows read and written into the tile (R125, R164, R407). -/
def rowsIn (s : State) (o : Op) (p t : Nat) (rows : List (Nat × Nat)) (scr bt all : Bool) : State :=
  let x := s.pack p
  let b := s.block x.block
  let ix := s.coreIx x
  let word := fun (va : Nat) => if scr then
      (if (mapGet b.spoison (scrKey ix va / 4)).isSome then nanBits else BitVec.ofNat 32 (scrNat b ix va 4)) else
    if s.cutOff o (o.tr.get va) then (Config.freeS (s.fresh + va)).setWidth 32
    else if poisoned s (o.tr.get va) then nanBits else BitVec.ofNat 32 (vNat s o.tr va 4)
  let bad := !scr && rows.any (fun r => (List.range 64).any (fun i => poisoned s (o.tr.get (r.2 + 4 * i))))
  let s := s.modTile p t (fun tl =>
    let tl := rows.foldl (fun tl r => tl.setRow r.1 ((List.range 64).map (fun i => word (r.2 + 4 * i)))) tl
    let tl := tl.fresh all
    if bt then { tl with tagB := true } else tl)
  if bad then memErrRecord s o.launch else s
/-- MSTA's rows converted and stored (R43, R51, R125, R164). -/
def rowsOut (s : State) (o : Op) (p t : Nat) (rows : List (Nat × Nat)) (scr bf : Bool) : State :=
  let x := s.pack p
  let tl := s.tile p t
  let ix := s.coreIx x
  let bytes := rows.flatMap (fun r => (List.range 64).flatMap (fun n =>
    let v := tl.get r.1 n
    let bs := if bf then leBytes (BF16.write .rn false 0 (f32 v)) 2 else leBytes (rne32 (f32 v)).toNat 4
    bs.zipIdx.map (fun e => (r.2 + (if bf then 2 else 4) * n + e.2, e.1))))
  if scr then
    s.modBlock x.block (fun b => bytes.foldl (fun b e => scrWrite { b with spoison := mapDel b.spoison (scrKey ix e.1 / 4) } ix e.1 e.2) b)
  else engineWrite s ((bytes.map (fun e => (o.tr.get e.1, e.2))).filter (fun e => !s.cutOff o e.1))
/-- Every member's scalar that an entry writes. -/
def entryScalar (s : State) (id sd : Nat) (v : W64) : State :=
  (s.ops.filterMap (fun q => if q.id == id then q.pack else match q.body with | .mate m => if m == id then q.pack else none | _ => none)).foldl
    (fun s p => s.modPack p (fun x => x.sset sd v)) s
/-- CAUSE 0x19 in the completion record of an engine's operation that met peer memory without a port, its free bytes passed over (R426;
log 4). -/
def cutRecord (s t : State) (o : Op) (foot : List (Nat × Nat)) (n : Nat) : State :=
  if foot.any (fun r => s.cutOff o r.1) then causeRecord { t with fresh := t.fresh + n } o.launch cXLATE else t
/-- TILE_ROW_COMPLETE: MZERO, MLDA or MSTA in its team's turn (R164, R167, R295, R296). -/
def execTileRowComplete (op : Nat) (s : State) : Host.Outcome State Fault Refusal :=
  due "TILE_ROW_COMPLETE" (match s.op op with
    | some o => (match o.pack, o.body with
      | some p, .mzero t rows all =>
        if o.done || !entryReady s o then none
        else some (markReady (completeOp (s.modTile p t (fun tl =>
          let tl := (rows.foldl (fun tl r => tl.setRow r (List.replicate 64 0)) tl).fresh all
          if all then { tl with tagB := false } else tl)) op))
      | some p, .mlda t rows scr bt all =>
        let foot := if scr then [] else rowRanges o rows 256
        let buffered := !scr && heldStore s o (rows.map (fun r => (r.2, 256)))
        if o.done || !entryReady s o || heldBack s o foot || buffered || anyClosed s foot then none
        else some (markReady (completeOp (cutRecord s (rowsIn (closeWindows s (linesOf foot)) o p t rows scr bt all) o foot (2 ^ 57)) op))
      | some p, .msta t rows scr bf sd =>
        let foot := if scr then [] else rowRanges o rows (if bf then 128 else 256)
        if o.done || !entryReady s o || heldBack s o foot || anyClosed s foot then none
        else some (markReady (completeOp (cutRecord s (entryScalar (rowsOut s o p t rows scr bf) op sd (s.tile p t).status) o foot 0) op))
      | _, _ => none)
    | none => none)
/-- WBLD_COMPLETE: the source read once at the L2 and written into the window of every engine of the partition (R125, R162,
R297, R407). -/
def execWbldComplete (op : Nat) (s : State) : Host.Outcome State Fault Refusal :=
  due "WBLD_COMPLETE" (match s.op op with
    | some o => (match o.pack, o.body with
      | some _, .wbld src off len =>
        let foot := physRanges o.tr [(src, len)]
        if o.done || !entryReady s o || heldBack s o foot || heldStore s o [(src, len)] || anyClosed s foot then none
        else
          let l := s.launch o.launch
          let s := closeWindows s (linesOf foot)
          let t := { s with wbuf := (List.range len).foldl (fun m i =>
            let ph := o.tr.get (src + i)
            let v := if s.cutOff o ph then (Config.freeS (s.fresh + i)).setWidth 8 else memByte s ph
            mapWrite 0 m (wbKey l.part (l.wboff + off + i)) v) s.wbuf }
          let t := { t with wpoison := (List.range (len / 4)).foldl (fun m i =>
              let k := wbKey l.part (l.wboff + off + 4 * i) / 4
              if poisoned s (o.tr.get (src + 4 * i)) then mapPut m k () else mapDel m k) s.wpoison }
          let t := if poisonIn s foot then memErrRecord t o.launch else t
          some (markReady (completeOp (cutRecord s t o foot len) op))
      | _, _ => none)
    | none => none)

end Sys2Proof.Machine
end

