-- ==== Sys2Proof/Machine/Xbar.lean ====
section
/-!
DEFINITION. The crossbar arrays: XPROG, XMV, XCAL, XREF (R171 to R178, R299 to R301) and ACCEPT (R181, R302). What an
analogue pass measures is free within the bounds of R175 (log 4).
-/
namespace Sys2Proof.Machine
open Sys2Proof

/-- Whether an operation is served by array `g` (R178). -/
def Op.onArray (o : Op) (g : Nat) : Bool :=
  match o.body with
  | .xprog a _ _ _ _ _ => a == g
  | .xmv a _ _ _ _ _ => a == g
  | .xcal a _ => a == g
  | .xref a _ _ => a == g
  | _ => false
/-- Whether an array is being programmed or calibrated, or will be (R173). -/
def arrayBusy (s : State) (g : Nat) : Bool :=
  s.ops.any (fun o => !o.done && (match o.body with | .xprog a _ _ _ _ _ => a == g | .xcal a _ => a == g | _ => false))
/-- The state an array holds when its queue is empty. -/
def restState (s : State) (g : Nat) : XState := match mapGet s.arrays g with | some a => a.st | none => .empty
/-- The state of an array (R173). -/
def arrayState (s : State) (g : Nat) : XState := if arrayBusy s g then .busy else restState s g
/-- Whether an operation is at the head of its array's queue (R178). -/
def arrayTurn (s : State) (id g : Nat) : Bool := !s.ops.any (fun o => decide (o.id < id) && !o.done && o.onArray g)
/-- ARRAYOK of R292. -/
def arrayOk (s : State) (p g : Nat) : Bool :=
  decide (g < 4096) && g / 64 == engineOf (s.pack p).core && (s.launchOf p).grantsArray g
/-- Bytes of a master copy (R172). -/
def masterBytes : Nat := 135168
/-- Weight (r, c) of a master copy read through a reader of bytes (R45, R172). -/
def weightAt (rd : Nat → BitVec 8) (r c : Nat) : BitVec 4 :=
  (rd ((512 * r + c) / 2)).extractLsb' (4 * (c % 2)) 4
/-- Word `c` of the column scales (`base` 131,072) or ranges (133,120) of a master copy (R172). -/
def columnWord (rd : Nat → BitVec 8) (base c : Nat) : W32 :=
  BitVec.ofNat 32 (ofBytes ((List.range 4).map (fun i => rd (base + 4 * c + i))))
/-- Whether an FP32 word is finite. -/
def isFinite (w : W32) : Bool := decide (bitsAt w 23 8 < 255)
/-- A reader of a master copy through a page map. -/
def masterRd (s : State) (m : PMap) (va i : Nat) : BitVec 8 := memByte s (m.get (va + i))
/-- The content checks of R173. -/
def masterOk (rd : Nat → BitVec 8) : Bool :=
  (List.range 512).all (fun r => (List.range 512).all (fun c => weightAt rd r c != 8#4)) &&
  (List.range 512).all (fun c => isFinite (columnWord rd 131072 c) &&
    decide (1 ≤ (columnWord rd 133120 c).toNat) && decide ((columnWord rd 133120 c).toNat ≤ 889))
/-- The array number that a member's operand holds. -/
def arrayOf (x : Pack) (f : Fld) : Nat := (x.srcs f).toNat
/-- The checks of R299 up to the state of the array, in each member. -/
def arrayChecks (s : State) (ps : List Nat) (f : Fld) (needs : Bool) : M Unit := do
  raiseIn cOPFORMAT ((ps.filter (fun p => !arrayOk s p (arrayOf (s.pack p) f))).map (fun p => (p, 0)))
  raiseIn cOPFORMAT ((ps.filter (fun p => needs && arrayState s (arrayOf (s.pack p) f) == .empty)).map (fun p => (p, 0)))

/-- XPROG (R173, R299, R300). -/
def execXprog (g : Guard) (d : Fld) (m : MAddr) (s : State) : Host.Outcome State Fault Refusal :=
  issue (.xprog g d m) s (fun cx s => do
    let ps := s.acting cx g
    awaitCount s cx ps .mx
    arrayChecks s ps d false
    let vas := ps.map (fun p => (p, (s.pack p).ea m 0))
    raiseIn cMISALIGN ((vas.filter (fun e => e.2 % 128 != 0)).map (fun e => (e.1, BitVec.ofNat 64 e.2)))
    let maps ← vas.mapM (fun e => do
      let l := s.launchOf e.1
      let tr ← probe s (.engine (engineOf (s.pack e.1).core)) l.part l.pasid (waiterOf e.1 cx.slot) (pagesOf e.2 masterBytes false)
      return (e.1, e.2, tr))
    waitIf (maps.any (fun e => sourceWaits s e.1 e.2.2 [(e.2.1, masterBytes)])) s .interlock
    let s := closeWindows s (maps.flatMap (fun e => linesOf (physRanges e.2.2 [(e.2.1, masterBytes)])))
    raiseIn cOPFORMAT ((maps.filter (fun e => !masterOk (masterRd s e.2.2 e.2.1))).map (fun e => (e.1, BitVec.ofNat 64 e.2.1)))
    let grp := s.nextOp
    return maps.foldl (fun t e =>
      let rd := masterRd s e.2.2 e.2.1
      let w := (List.range 512).flatMap (fun r => (List.range 512).map (weightAt rd r))
      let col := fun base => (List.range 512).map (columnWord rd base)
      let bad := poisonIn s (physRanges e.2.2 [(e.2.1, masterBytes)])
      let t := if bad then memErrRecord t (s.pack e.1).launch else t
      (addOp t cx grp e.1 .mx e.2.2 [] [] (.xprog (arrayOf (s.pack e.1) d) e.2.1 w (col 131072) ((col 133120).map (·.toNat)) bad)).fillTc
        (.engine (engineOf (s.pack e.1).core)) (s.launchOf e.1).pasid (pagesOf e.2.1 masterBytes false)) s)

/-- Input rows of XMV and XREF (R174). -/
def xInputs (x : Pack) (a : Nat) (m : Lanes) : List (BitVec 8) :=
  (List.range 512).map (fun r =>
    let l := r % 64 / 4
    if m.getLsbD l then (x.vget (a + r / 64) l).extractLsb' (8 * (r % 4)) 8 else 0)
/-- TRAPA of XDRIFT (R176). -/
def driftInfo (g mask : Nat) (stale : Bool) : W64 := BitVec.ofNat 64 (g % 4096 + 4096 * mask + if stale then 65536 else 0)

/-- The master-copy address that an array will have recorded when an operation issued now comes to its turn: the newest queued XPROG's,
else the recorded one (R173, R178). -/
def masterVa (s : State) (g : Nat) : Nat :=
  let queued := s.ops.filterMap (fun o => match o.body with | .xprog a va _ _ _ _ => if a == g && !o.done then some va else none | _ => none)
  match queued.getLast? with
  | some va => va
  | none => (match mapGet s.arrays g with | some r => r.va | none => 0)
/-- XMV: the pass starts and the issuing slot is blocked until it is done (R174, R178, R301). -/
def execXmv (g : Guard) (d a b : Fld) (s : State) : Host.Outcome State Fault Refusal :=
  issue (.xmv g d a b) s (fun cx s => do
    if ((s.pack (cx.packs.headD 0)).slot cx.slot).stall = some .xmv then return s
    let ps := s.acting cx g
    if ps.isEmpty then return s
    awaitCount s cx ps .mx
    arrayChecks s ps b true
    let det := (s.launchOf (cx.packs.headD 0)).det
    raiseIn cXDRIFT ((ps.filter (fun p => !det && arrayState s (arrayOf (s.pack p) b) == .stale)).map
      (fun p => (p, driftInfo (arrayOf (s.pack p) b) 0 true)))
    let maps ← ps.mapM (fun p => do
      let l := s.launchOf p
      let va := masterVa s (arrayOf (s.pack p) b)
      let tr ← probe s (.engine (engineOf (s.pack p).core)) l.part l.pasid (waiterOf p cx.slot)
        (pagesOf va (if det then masterBytes else 0) false)
      return (p, tr))
    let grp := s.nextOp
    let t := maps.foldl (fun t e =>
      let x := s.pack e.1
      addOp t cx grp e.1 .mx e.2 (regsFrom d.toNat 32) []
        (.xmv (arrayOf x b) (xInputs x a.toNat (s.active cx g e.1)) d.toNat ((List.range 8).all (fun i => !x.tagB (a.toNat + i)))
          cx.slot cx.packs)) s
    .error (.stall (cx.packs.foldl (fun t p => t.leaveMerge (waiterOf p cx.slot)) t) .xmv))

/-- XCAL (R177, R300). -/
def execXcal (g : Guard) (d b : Fld) (s : State) : Host.Outcome State Fault Refusal :=
  issue (.xcal g d b) s (fun cx s => do
    let ps := s.acting cx g
    awaitCount s cx ps .mx
    arrayChecks s ps b true
    let grp := s.nextOp
    return ps.foldl (fun t p =>
      addOp t cx grp p .mx [] [] [d.toNat - 384] (.xcal (arrayOf (s.pack p) b) (d.toNat - 384))) s)

/-- XREF (R177, R300). -/
def execXref (g : Guard) (d a b : Fld) (s : State) : Host.Outcome State Fault Refusal :=
  issue (.xref g d a b) s (fun cx s => do
    let ps := s.acting cx g
    awaitCount s cx ps .mx
    arrayChecks s ps b true
    let grp := s.nextOp
    return ps.foldl (fun t p =>
      let x := s.pack p
      addOp t cx grp p .mx [] [d.toNat] [] (.xref (arrayOf x b) (xInputs x a.toNat (s.active cx g p)) d.toNat)) s)

/-- ACCEPT: the copy and the tag E whole (R181, R302). -/
def execAccept (g : Guard) (d a : Fld) (s : State) : Host.Outcome State Fault Refusal :=
  issue (.accept g d a) s (fun cx s => .ok (eachPack s (s.acting cx g) (fun p x =>
    (x.writeLanes d.toNat (s.active cx g p) (x.srcv .int a)).tag d.toNat false)))

/-! ### Passes -/

/-- A reference weight (R174). -/
def refWeight (j r : Nat) : Int :=
  match j with | 0 => 7 | 1 => -7 | 2 => if r % 2 = 0 then 7 else -7 | _ => 0
/-- The sum of a column for inputs and weights. -/
def columnSum (x : List (BitVec 8)) (w : Nat → Int) : Int := (x.zipIdx.map (fun e => e.1.toInt * w e.2)).sum
/-- The ideal reference code for a pass's own inputs (R174). -/
def idealRef (x : List (BitVec 8)) (j : Nat) : Int := nearestDivInt (columnSum x (refWeight j)) 889
/-- An ADC code clamped to its range (R174). -/
def clampCode (k : Int) : Int := max (-512) (min 511 k)
/-- REFCODE of a pass: free, read through the array's gains and offsets (R174; log 4). -/
def refCode (r : XArr) (n j : Nat) : Int := clampCode (Config.freeRef (4 * n + j) r.gain r.offs)
/-- The ADC code of a column with range `m` and exact sum `y`, and whether it saturated: free within 2·m of the sum inside the range of
R175, and clamped outside it (R174, R175; log 4). -/
def adcCode (n c m : Nat) (y : Int) : Int × Bool :=
  if -512 * (m : Int) ≤ y ∧ y ≤ 511 * (m : Int) then
    let lo := max (-512) (-((-(y - 2 * m)) / (m : Int)))
    let hi := min 511 ((y + 2 * m) / (m : Int))
    (lo + ((Config.freeAdc (1024 * n + c) % (hi - lo + 1).toNat : Nat) : Int), false)
  else (if y < 0 then -512 else 511, true)
/-- The value of an integer times a scale, rounded once to FP32. -/
def scaleCode (k : Int) (sc : W32) : W32 := rne32 (fMul (Sys2Proof.Machine.ofInt k 0) (f32 sc))
/-- The 512 exact column sums of held weights, row after row (R174). -/
def columnSums : List (BitVec 8) → List (BitVec 4) → List Int
  | [], _ => List.replicate 512 0
  | a :: as, ws => List.zipWith (fun (w : BitVec 4) (t : Int) => a.toInt * w.toInt + t) (ws.take 512) (columnSums as (ws.drop 512))
/-- The 512 outputs of an analogue pass and whether a column saturated (R174, R175); an array programmed from poison gives free codes
(R407; log 101). -/
def analogueOut (n : Nat) (r : XArr) (x : List (BitVec 8)) : List (W32 × Bool) :=
  (columnSums x r.w).zipIdx.map (fun e =>
    let c := e.2
    let m := nth 1 r.m c
    let k := if r.poison then (clampCode ((Config.freeAdc (1024 * n + c) % 1024 : Nat) - 512 : Int), false) else adcCode n c m e.1
    (scaleCode (k.1 * m) (nth 0 r.scale c), k.2))
/-- BOUND of XBND: the largest 2·m·|s|, rounded toward +∞ (R174, R175). -/
def boundOf (r : XArr) : W32 :=
  (List.range 512).foldl (fun (b : W32) c =>
    let v : W32 := BitVec.ofNat 32 (F32.write .ru false 0 (fMul (Sys2Proof.Machine.ofInt (2 * nth 1 r.m c) 0) (fAbs (f32 (nth 0 r.scale c)))))
    if b.toNat < v.toNat then v else b) 0
/-- The exact product of a `.det` pass from the master copy as it stands (R174, R178). -/
def exactOut (s : State) (tr : PMap) (va : Nat) (x : List (BitVec 8)) : List W32 :=
  let rd := masterRd s tr va
  (List.range 512).map (fun c => scaleCode (columnSum x (fun r => (weightAt rd r c).toInt)) (columnWord rd 131072 c))
/-- The outputs written to V`d` and up, in all lanes, each register tagged (R174). -/
def Pack.writeColumns (x : Pack) (d : Nat) (ys : List W32) (b : Bool) : Pack :=
  let x := ys.zipIdx.foldl (fun x e => x.vset (d + e.2 / 16) (e.2 % 16) e.1) x
  (List.range 32).foldl (fun x i => x.tag (d + i) b) x

/-- Members whose XMV has finished retire it: all together while they issue ganged, else each by itself (R301). -/
def retireXmv (s : State) (cl : Instr) (grp slot : Nat) (packs : List Nat) : State :=
  let out := fun (p : Nat) => s.ops.any (fun o => o.pack == some p && o.grp == grp && !o.done)
  let ready := packs.filter (fun p => ((s.pack p).slot slot).stall == some .xmv && !out p)
  let gang := packs.any (fun p => s.isGang p)
  if gang && packs.any out then s
  else ready.foldl (fun s p => match ((s.pack p).slot slot).path, ((s.pack p).slot slot).clause with
    | some q, some c => s.modPack p (retireIn cl ⟨[p], slot, q.pc, c⟩ s.clk.toNat)
    | _, _ => s) s
/-- XMV, as far as its retirement depends on it: one word that does not end its clause. -/
def xmvWord : Instr := .xmv 7 0 0 384
/-- XDRIFT raised at the XMV of a member, its destination unchanged; a ganged team splits (R176, R301, R372). -/
def drift (s : State) (o : Op) (p slot : Nat) (packs : List Nat) (info : W64) : State :=
  let e : Pending := { cause := cXDRIFT, info := info, lanes := (s.path p slot).mask, slot := some slot }
  let apart := fun (t : State) => if 1 < packs.length then packs.foldl (fun t q => t.modPack q (fun x => { x with gang := false })) t else t
  let t := (apart (completeOp s o.id)).modPack p (fun x =>
    { x.modSlot slot (fun sl => { sl with stall := some .interlock }) with pending := x.pending ++ [e] })
  if (s.pack p).retired then completeOp s o.id else retireXmv (takeNow t p slot e) xmvWord o.grp slot packs
/-- XMV_PASS_DONE: the pass at the head of its array's queue ends (R174 to R178, R301). -/
def execXmvPassDone (op : Nat) (s : State) : Host.Outcome State Fault Refusal :=
  due "XMV_PASS_DONE" (match s.op op with
    | some o => (match o.pack, o.body with
      | some p, .xmv g x d allE slot packs =>
        if o.done || !arrayTurn s op g then none
        else match mapGet s.arrays g with
        | none => none
        | some r =>
          let ended := fun (s : State) (ys : List W32) (b : Bool) (f : Pack → Pack) =>
            some (retireXmv (completeOp (s.modPack p (fun x => f (x.writeColumns d ys b))) op) xmvWord o.grp slot packs)
          if (s.launch o.launch).det then
            let foot := physRanges o.tr [(r.va, masterBytes)]
            if heldBack s o foot || heldStore s o [(r.va, masterBytes)] || anyClosed s foot then none
            else
              let t := closeWindows s (linesOf foot)
              ended (if poisonIn t foot then memErrRecord t o.launch else t) (exactOut t o.tr r.va x) (!allE) id
          else if r.st == .stale then some (drift s o p slot packs (driftInfo g 0 true))
          else
            let n := s.fresh
            let s := { s with fresh := n + 1 }
            let bad := (List.range 4).filter (fun j => decide (3 < (refCode r n j - idealRef x j).natAbs))
            if !bad.isEmpty then some (drift s o p slot packs (driftInfo g ((bad.map (2 ^ ·)).sum) false))
            else
              let ys := analogueOut n r x
              let sat := if ys.any (·.2) then 2 ^ 32 else 0
              let v := BitVec.ofNat 64 ((boundOf r).toNat + sat + 2 ^ 33 * g)
              ended s (ys.map (·.1)) true (fun y => { y with xbnd := v })
      | _, _ => none)
    | none => none)
/-- 512 trimmed gains or offsets (R177, R300). -/
def trims (n : Nat) : List (BitVec 16) := (List.range 512).map (fun c => Config.freeTrim (n + c))
/-- What follows when an XPROG or XCAL has acted: it completes, but while its partition is being halted its decrement comes by itself, then
or after the save (R178, R388; DEDUCED, log 117). -/
def arrayActed (s : State) (o : Op) : State :=
  let l := s.launch o.launch
  if l.preempt && (s.part l.part).state == 1 then s.modOp o.id (fun o => { o with acted := true, ds := [] }) else completeOp s o.id
/-- XPROG_DONE: the array is programmed, its gains and offsets trimmed (R173, R300). -/
def execXprogDone (op : Nat) (s : State) : Host.Outcome State Fault Refusal :=
  due "XPROG_DONE" (match s.op op with
    | some o => (match o.body with
      | .xprog g va w sc m bad =>
        if o.done || !arrayTurn s op g then none
        else if o.acted then some (completeOp s op)
        else
          let r : XArr := ⟨(s.launch o.launch).pasid, .ready, va, w, sc, m, trims s.fresh, trims (s.fresh + 512), bad⟩
          some (arrayActed { s with fresh := s.fresh + 1024, arrays := mapPut s.arrays g r } o)
      | _ => none)
    | none => none)
/-- XCAL_DONE: the gains and offsets are retrimmed, and the residual decides READY or STALE (R173, R177). -/
def execXcalDone (op : Nat) (s : State) : Host.Outcome State Fault Refusal :=
  due "XCAL_DONE" (match s.op op with
    | some o => (match o.pack, o.body with
      | some p, .xcal g sd =>
        if o.done || !arrayTurn s op g then none
        else if o.acted then some (completeOp s op)
        else
          let bad := decide (3 < Config.freeResidual s.fresh)
          let next : XState := if bad then .stale else .ready
          let arrays := match mapGet s.arrays g with
            | some r => mapPut s.arrays g { r with st := next, gain := trims s.fresh, offs := trims (s.fresh + 512) }
            | none => s.arrays
          let t := { s with fresh := s.fresh + 1024, arrays := arrays }
          some (arrayActed (t.modPack p (fun x => x.sset sd (if bad then 1 else 0))) o)
      | _, _ => none)
    | none => none)
/-- XREF_DONE: measured and expected reference codes (R177, R300). -/
def execXrefDone (op : Nat) (s : State) : Host.Outcome State Fault Refusal :=
  due "XREF_DONE" (match s.op op with
    | some o => (match o.pack, o.body with
      | some p, .xref g x d =>
        if o.done || !arrayTurn s op g then none
        else match mapGet s.arrays g with
        | none => none
        | some r =>
          let n := s.fresh
          let code := fun (l : Nat) => show W32 from
            if l < 4 then BitVec.ofInt 32 (refCode r n l) else if l < 8 then BitVec.ofInt 32 (idealRef x (l - 4)) else 0
          let t := ({ s with fresh := n + 1 } : State)
          some (completeOp (t.modPack p (fun y => (y.writeLanes d 0xFFFF code).tag d false)) op)
      | _, _ => none)
    | none => none)

end Sys2Proof.Machine
end

