-- ==== Sys2Proof/Machine/Tables.lean ====
section
/-!
DEFINITION. DRAM tables (R182 to R184, R303, R304, R419) and POST (R306).
-/
namespace Sys2Proof.Machine
open Sys2Proof

/-- The physical key of device table row `t` (R410, R419). -/
def rowKey (t : Nat) : Nat := t % 8 * 2 ^ 36 + (2 ^ 36 - 2 ^ 28) + 1024 * (t / 8)
/-- The table binding of slot `k` of a launch. -/
def Launch.tbind (l : Launch) (k : Nat) : Option TBind := nth none l.tbinds k
/-- A binding written (R303). -/
def bindSlot (s : State) (launch slot : Nat) (b : TBind) : State :=
  s.modLaunch launch (fun l => { l with tbinds := l.tbinds.set slot (some b) })
/-- Fields of a binding word (R303). -/
def bRow (w : W64) : Nat := bitsAt w 0 32
def bRows (w : W64) : Nat := bitsAt w 32 4
def bCols (w : W64) : Nat := bitsAt w 36 4
/-- The checks of a binding (R182, R303, R419). -/
def bindOk (w : W64) (l : Launch) : Bool :=
  bitsAt w 40 24 == 0 && decide (bRows w ≤ 8) && decide (bCols w ≤ 8) && decide (bRows w + bCols w ≤ 8) &&
  bRow w % 1024 == 0 && decide (bRow w / 1024 < l.tlen)
/-- TBIND (R182, R303); OPFORMAT of the binding word, which lies in a register, has information 0 (DEDUCED, log 130). -/
def execTbind (g : Guard) (n16 : Bool) (slot : BitVec 4) (d : Fld) (m : MAddr) (s : State) : Host.Outcome State Fault Refusal :=
  issue (.tbind g n16 slot d m) s (fun cx s => do
    match s.acting cx g with
    | [] => return s
    | p :: _ =>
      awaitCount s cx [p] .tq
      let x := s.pack p
      let l := s.launchOf p
      let w := x.srcs d
      failIf (!bindOk w l) cOPFORMAT 0
      let b : TBind := ⟨l.tbase + bRow w / 1024, n16, 2 ^ bRows w, 2 ^ bCols w⟩
      let src := x.ea m 0
      if src = 0 then return addDone (bindSlot s x.launch slot.toNat b) cx p .tq (.tbind slot.toNat b 0)
      else
        failIf (src % 16 != 0) cMISALIGN (BitVec.ofNat 64 src)
        let tr ← probe s (.courier x.core) l.part l.pasid (waiterOf p cx.slot) (pagesOf src 1024 false)
        let s := s.fillTc (.courier x.core) l.pasid (pagesOf src 1024 false)
        return addOp s cx s.nextOp p .tq tr [] [] (.tbind slot.toNat b src))
/-- TBIND_COPY_DONE: the source read at the L2, the row written in DRAM, poison carried, then the binding (R125, R303, R407,
R419). -/
def execTbindCopyDone (op : Nat) (s : State) : Host.Outcome State Fault Refusal :=
  due "TBIND_COPY_DONE" (match s.op op with
    | some o => (match o.body with
      | .tbind slot b src =>
        let foot := physRanges o.tr [(src, 1024)]
        if o.done || heldBack s o foot || heldStore s o [(src, 1024)] || anyClosed s foot then none
        else
          let t := closeWindows s (linesOf foot)
          let bs := (List.range 1024).map (fun i =>
            let ph := o.tr.get (src + i)
            if s.cutOff o ph then (Config.freeS (s.fresh + i)).setWidth 8 else memByte t ph)
          let bad := (List.range 256).filter (fun i => (List.range 4).any (fun j => poisoned t (o.tr.get (src + 4 * i + j))))
          let u := ramWrites t (rowKey b.row) bs
          let u := (List.range 256).foldl (fun u i => setPoison u (rowKey b.row / 4 + i) (bad.contains i)) u
          let u := if bad.isEmpty then u else memErrRecord u o.launch
          some (completeOp (bindSlot (cutRecord s u o foot 1024) o.launch slot b) op)
      | _ => none)
    | none => none)

/-- The entries of one lane: index bytes of `a`, and of `b` for TQM (R183). -/
def entriesOf (bd : TBind) (win : Nat) (a : W32) (b : Option W32) : List Nat :=
  (List.range 4).map (fun i =>
    let u := bitsAt a (8 * i) 8
    256 * win + (match b with
      | none => u
      | some v => u % bd.rows * bd.cols + bitsAt v (8 * i) 8 % bd.cols))
/-- TQ and TQM (R183, R184, R304). -/
def query (g : Guard) (slot : Nat) (win : BitVec 2) (d a : Fld) (b : Option Fld) (cx : Cx) (s : State) : M State := do
  let ps := s.acting cx g
  if ps.isEmpty then return s
  awaitCount s cx ps .tq
  waitIf (s.ops.any (fun o => !o.done && cx.packs.any (fun p => o.pack == some p) &&
    (match o.body with | .tbind k _ _ => k == slot | _ => false))) s .interlock
  match (s.launchOf (cx.packs.headD 0)).tbind slot with
  | none => raise cOPFORMAT 0
  | some bd =>
    failIf (bd.wide && decide (2 ≤ win.toNat)) cOPFORMAT 0
    let dst := regsFrom d.toNat (if bd.wide then 2 else 1)
    failIf (cx.packs.any (fun p => dst.any (fun r => decide ((s.pack p).alloc ≤ r)))) cILLOP cx.at
    waitIf (s.ops.any (fun o => !o.done && cx.packs.any (fun p => o.pack == some p) && o.dv.any dst.contains)) s .interlock
    bndUse s ps (a :: b.toList)
    let grp := s.nextOp
    return ps.foldl (fun t p =>
      let x := s.pack p
      let ls := (lanesOf (s.active cx g p)).map (fun l =>
        (l, entriesOf bd win.toNat (x.srcv .int a l) (b.map (fun f => x.srcv .int f l))))
      addOp t cx grp p .tq [] dst [] (.tq bd ls d.toNat)) s
/-- TQ (R183, R304). -/
def execTq (g : Guard) (win : BitVec 2) (d a b : Fld) (s : State) : Host.Outcome State Fault Refusal :=
  issue (.tq g win d a b) s (query g b.toNat win d a none)
/-- TQM (R183, R304). -/
def execTqm (g : Guard) (win : BitVec 2) (d a b c : Fld) (s : State) : Host.Outcome State Fault Refusal :=
  issue (.tqm g win d a b c) s (query g c.toNat win d a (some b))
/-- The entry `e` of a row (R183, R419). -/
def rowEntry (s : State) (b : TBind) (e : Nat) : Nat :=
  let n := if b.wide then 2 else 1
  let a := rowKey b.row + n * (e % (1024 / n))
  ofBytes ((List.range n).map (fun i => ramRead s (a + i)))
/-- TQ_DONE: the row read in DRAM, the destination bytes of the active lanes written (R183, R184, R304). -/
def execTqDone (op : Nat) (s : State) : Host.Outcome State Fault Refusal :=
  due "TQ_DONE" (match s.op op with
    | some o => (match o.pack, o.body with
      | some p, .tq b lanes d =>
        if o.done then none
        else
          let word := fun (es : List Nat) (k : Nat) => show W32 from
            if b.wide then BitVec.ofNat 32 (rowEntry s b (nth 0 es (2 * k)) + 65536 * rowEntry s b (nth 0 es (2 * k + 1)))
            else BitVec.ofNat 32 (ofBytes (es.map (fun e => BitVec.ofNat 8 (rowEntry s b e))))
          let n := if b.wide then 2 else 1
          let t := s.modPack p (fun x =>
            let x := lanes.foldl (fun x e => (List.range n).foldl (fun x k => x.vset (d + k) e.1 (word e.2 k)) x) x
            x.settleTags d n (maskOf (lanes.map (·.1))) false)
          some (completeOp t op)
      | _, _ => none)
    | none => none)

/-- POST: the release wait, the region end, then a store of eight bytes in each member (R121, R306, R362). -/
def execPost (g : Guard) (d : Fld) (m : MAddr) (s : State) : Host.Outcome State Fault Refusal :=
  issue (.post g d m) s (fun cx s => do
    let ps := cx.packs.filter (s.ucond cx g)
    if ps.isEmpty then return s
    let s ← endRegions s cx.slot ps
    waitIf (ps.any (relBusy s)) s .rel
    awaitCount s cx ps .st
    let as := ps.map (fun p => (p, oneAcc s cx m p))
    misaligned as 8
    let ms ← probeEach s cx.slot (asPages as true)
    let s := s.fillEach (asPages as true)
    awaitTurn s (cx.packs.headD 0)
    let grp := s.nextOp
    return as.foldl (fun s e =>
      let mp := mapOf ms e.1
      let v := leBytes ((s.pack e.1).srcs d).toNat 8
      addOp s cx grp e.1 .st mp [] [] (.post (e.2.flatMap (fun a => mp.bytes a.va v)))) s)

end Sys2Proof.Machine
end

