-- ==== Sys2Proof/Machine/Cellar.lean ====
section
/-!
DEFINITION. Near memory: job records, NLAUNCH, the Cellar queues, job kinds and events (R305, R333 to R336, R409 to R420), and
the reading of guard slots (R153).
-/
namespace Sys2Proof.Machine
open Sys2Proof

/-! ### Job records -/

/-- The rules of R334 for a SEGSUM record. -/
def segsumOk (r : BitVec 512) : Bool :=
  bitsAt r 448 24 == 0 && decide (1 ≤ jLen r) && decide (jLen r ≤ 1024) && decide (jFmt r ≤ 1) && decide (jOfmt r ≤ 1) &&
  decide (1 ≤ jN r) && decide (1 ≤ jNbag r) && decide (jNbag r ≤ 2 ^ 24) && decide (jNidx r ≤ 2 ^ 24) &&
  jArg r 0 % 16 == 0 && jP r % 16 == 0 && decide (jLen r * fmtBytes (jFmt r) ≤ jP r) && jArg r 1 % 4 == 0 && jArg r 2 % 4 == 0 &&
  jArg r 3 % fmtBytes (jOfmt r) == 0 && jEvent r % 32 == 0
/-- The rules of R413 and R414 for the other kinds. -/
def kindOk (r : BitVec 512) : Bool :=
  let k := jKind r
  let es := fmtBytes (jFmt r)
  let zero := fun (i : Nat) => jArg r i == 0
  bitsAt r 448 28 == 0 && bitsAt r 320 64 == 0 && decide (1 ≤ jN r) && zero 3 &&
  (if k = 0 then (jAff r == 0 || jAff r == 2) && decide (1 ≤ jLen r) && decide (jFmt r ≤ 2) && jArg r 0 % 16 == 0 && jP r % 16 == 0 &&
      decide (jLen r * es ≤ jP r) && jArg r 1 % es == 0 && jArg r 2 % 4 == 0
   else if k = 2 then jAff r == 0 && decide (1 ≤ jLen r) && decide (jFmt r ≤ 1) && jP r == 0 && jArg r 0 % 64 == 0 &&
      jArg r 2 % 64 == 0 && jArg r 1 % es == 0
   else if k = 3 then jAff r == 0 && jLen r == 0 && decide (jFmt r ≤ 1) && jP r == 0 && zero 2 && jArg r 0 % es == 0 && jArg r 1 % es == 0
   else jAff r == 0 && jLen r == 0 && jFmt r == 0 && zero 1 && zero 2 && jArg r 0 % 4 == 0)
/-- Whether a job record obeys its rules (R334, R414). -/
def jobOk (r : BitVec 512) : Bool :=
  bitsAt r 313 7 == 0 && bitsAt r 249 7 == 0 && bitsAt r 185 7 == 0 && bitsAt r 121 7 == 0 && decide (jKind r ≤ 4) &&
  decide (jAff r ≤ 3) && (if jKind r = 1 then segsumOk r else kindOk r)
/-- Every page a job names, the event record's among them (R305, R334). -/
def jobPages (r : BitVec 512) : List (Nat × Bool) :=
  (jobRanges r).flatMap (fun a => pagesOf a.1 a.2.1 a.2.2) ++ (if jEvent r = 0 then [] else pagesOf (jEvent r) 32 true)
/-- The first byte of the affinity argument, of ARG0 where the range it names is empty. -/
def jobHead (r : BitVec 512) : Nat :=
  if (jobArgs r).any (fun a => a.1 == jAff r && decide (0 < a.2.1)) then jArg r (jAff r) else jArg r 0
/-- Whether an address leads to the table area by either view, as far as its translation is at hand (R410, R414). -/
def tablePage (s : State) (tc : Tc) (pasid va : Nat) : Bool :=
  match s.tlbFind tc pasid va false with
  | none => false
  | some t =>
    let a := t.tbase + (va - t.base)
    let d := a - s.dev.bar2
    let o := if d < 2 ^ 39 then d % 2 ^ 36 else (d - 2 ^ 39) / 2 ^ 15 * 2 ^ 12 + (d - 2 ^ 39) % 2 ^ 12
    decide (s.dev.bar2 ≤ a) && decide (d < 2 ^ 40) && decide (2 ^ 36 - 2 ^ 28 ≤ o)
/-- Whether a RAPPLY record's source touches the table area; its other pages are translated before anything else is decided (R414). -/
def inTableArea (s : State) (tc : Tc) (pasid : Nat) (r : BitVec 512) : Bool :=
  jKind r == 3 && (pagesOf (jArg r 1) (jN r * fmtBytes (jFmt r)) false).any (fun a => tablePage s tc pasid a.1)
/-- A RAPPLY record's source pages translated before anything that its table area decides (R414). -/
def awaitSource (s : State) (tc : Tc) (part pasid who : Nat) (r : BitVec 512) : M Unit :=
  let as := if jKind r = 3 then pagesOf (jArg r 1) (jN r * fmtBytes (jFmt r)) false else []
  let miss := as.filter (fun a => s.xlate tc pasid who a.1 a.2 == .miss)
  if miss.isEmpty then .ok () else .error (.stall (miss.foldl (fun s a => s.wantPage tc part pasid who (a.1 / 4096) a.2) s) .xlate)
/-- The Cellar TLB that serves a job: its affinity argument's stack, as far as its translation is at hand (R394). -/
def jobTlb (s : State) (pasid : Nat) (r : BitVec 512) : Tc :=
  match s.tlbFind .l2 pasid (jobHead r) false with
  | some t => (match s.target (t.tbase + (jobHead r - t.base)) with | .device ph => .cellar (stackOf ph) | _ => .cellar 0)
  | none => .cellar 0
/-- The lowest address of a job's ranges that leads to host or peer memory, with its write bit (R127). -/
def outside (m : PMap) (r : BitVec 512) : Option (Nat × Bool) :=
  lowFail ((((jobRanges r).flatMap (fun a => pagesOf a.1 a.2.1 a.2.2)).filter (fun a => isBus (m.get a.1))).map (fun a => (a, .fail)))

/-! ### The Cellar queue -/

/-- Jobs in the queue of a stack: one that its guard still holds has not entered it (R416). -/
def queued (s : State) (stack : Nat) : Nat :=
  (s.ops.filter (fun o => !o.done && (match o.job? with
    | some j => !j.discarded && j.stack == stack && j.stage == .queued | none => false))).length
/-- A job as it is issued, its guard not read yet (R305). -/
def newJob (r : BitVec 512) (m : PMap) (ring : Nat) (bar guard : Option Nat) (order stamp : Nat) (parts : List SeqPart) : Job :=
  { raw := r, bar := bar, guard := guard, stage := if guard.isSome then .held else .queued, discarded := false,
    stack := stackOf (m.get (jobHead r)), order := order, code := 0, bag := 0, poison := false, deferred := 0, unit := 0,
    ring := ring, stamp := stamp, parts := parts }

/-- The physical ranges of a job, those it writes or all. -/
def jobFoot (o : Op) (j : Job) (all : Bool) : List (Nat × Nat) :=
  physRanges o.tr (((jobRanges j.raw).filter (fun a => all || a.2.2)).map (fun a => (a.1, a.2.1)))
/-- Whether two jobs overlap: one writes a byte that the other reads or writes (R416). -/
def jobsOverlap (o : Op) (j : Job) (q : Op) (i : Job) : Bool :=
  overlaps (jobFoot o j false) (jobFoot q i true) || overlaps (jobFoot o j true) (jobFoot q i false)
/-- The parts of a reducing copy or RAPPLY job (R147, R417). -/
def Op.parts (o : Op) : List SeqPart := match o.body with | .copy c => c.parts | .job j => j.parts | _ => []
/-- Whether a job's guard slot has still to be read. -/
def Job.unread (j : Job) : Bool := j.guard.isSome && j.stage == .held && !j.discarded
/-- Whether an older job of a job's stack stands at the head of the queue, its guard slot unresolved, or before one that does (R153). -/
def unreadBefore (s : State) (o : Op) (j : Job) : Bool :=
  s.ops.any (fun q => decide (q.id < o.id) && !q.done && (match q.job? with | some i => i.stack == j.stack && i.unread | none => false))
/-- Whether a job stands behind an older command that a guard holds: one of its stack's queue (R153), an overlapping job of its `.det`
launch (R416), or one that has an earlier number of a region of its own (R147, R417; log 48). -/
def jobBehind (s : State) (o : Op) (j : Job) : Bool :=
  unreadBefore s o j || s.ops.any (fun q => decide (q.id < o.id) && guardHeld s q &&
    ((match q.job? with
      | some i => (s.launch o.launch).det && q.launch == o.launch && jobsOverlap q i o j
      | none => false) ||
    q.parts.any (fun a => o.parts.any (fun b => b.region == a.region))))
/-- A job about to be issued as operation `o`: one that stands behind a held command waits with it (R153, R416). -/
def Job.standing (j : Job) (s : State) (o : Op) : Job := if jobBehind s o j then { j with stage := .held } else j

/-- NLAUNCH (R305, R414, R416). -/
def execNlaunch (g : Guard) (ben gen : Bool) (bar : BitVec 4) (gslot : BitVec 3) (m : MAddr) (s : State) :
    Host.Outcome State Fault Refusal :=
  issue (.nlaunch g ben gen bar gslot m) s (fun cx s => do
    match s.acting cx g with
    | [] => return s
    | p :: _ =>
      let s ← endRegions s cx.slot cx.packs
      awaitCount s cx [p] .nm
      let x := s.pack p
      let l := s.launchOf p
      let va := x.ea m 0
      failIf (va % 64 != 0) cMISALIGN (BitVec.ofNat 64 va)
      let tc := Tc.courier x.core
      let who := waiterOf p cx.slot
      let wm ← probe s tc l.part l.pasid who (pagesOf va 64 false)
      waitIf (sourceWaits s p wm [(va, 64)]) s .interlock
      let s := closeWindow s (lineOf (wm.get va))
      let r : BitVec 512 := BitVec.ofNat 512 (memNat s (wm.get va) 64)
      let tc := jobTlb s l.pasid r
      failIf (!jobOk r) cOPFORMAT (BitVec.ofNat 64 va)
      awaitSource s tc l.part l.pasid who r
      failIf (inTableArea s tc l.pasid r) cOPFORMAT (BitVec.ofNat 64 va)
      let mp ← probe s tc l.part l.pasid who (jobPages r)
      let s := s.fillTc (.courier x.core) l.pasid (pagesOf va 64 false)
      let _ ← match outside mp r with
        | some a => raise cXLATE (xlateInfo a.1 a.2)
        | none => .ok ()
      let regs ← regionStacks s tc l.part l.pasid who mp (if jKind r = 3 then regionsOf l.pasid [(jArg r 0, jN r * fmtBytes (jFmt r))] else [])
      waitIf (!seqRoom s regs) s .engine
      let j0 := newJob r mp l.ring (if ben then some bar.toNat else none) (if gen then some gslot.toNat else none) s.nextOp
        x.lclk.toNat []
      waitIf (!gen && decide (64 ≤ queued s j0.stack)) s .queue
      awaitTurn s p
      let (t, parts) := takeNumbers s regs
      let j := { j0 with parts := parts }
      let me : Op := { id := t.nextOp, grp := t.nextOp, pack := some p, launch := x.launch, k := some .nm, tr := mp, body := .job j }
      return (addOp t cx t.nextOp p .nm mp [] [] (.job (j.standing t me))).fillTc tc l.pasid (jobPages r))

/-- Whether an overlapping job that entered its queue before has not completed (R416). -/
def jobBlocked (s : State) (o : Op) (j : Job) : Bool :=
  s.ops.any (fun q => q.id != o.id && !q.done && (match q.job? with
    | some i => !i.discarded && i.stage != .held && decide (i.order < j.order) && jobsOverlap o j q i | none => false))
/-- CELLAR_JOB_START: the ranges of a job prepared and closed (R126, R412, R416). -/
def execCellarJobStart (op : Nat) (s : State) : Host.Outcome State Fault Refusal :=
  due "CELLAR_JOB_START" (match s.op op with
    | some o => (match o.job? with
      | some j =>
        if o.done || j.discarded || j.stage != .queued || jobBlocked s o j then none
        else
          let foot := jobFoot o j true
          some ((prepare s foot).modOp op (fun o => { o with shut := foot, body := .job { j with stage := .running } }))
      | none => none)
    | none => none)

/-- A job past its guard enters its stack's queue when it stands behind no held command and the queue has room; until then it waits before
it (R416; log 48). -/
def enterQueue (s : State) (id : Nat) (j : Job) (behind : Bool) : State :=
  if !behind && decide (queued s j.stack < 64) then
    ({ s with nextOp := s.nextOp + 1 } : State).modOp id (fun o => { o with body := .job { j with guard := none, stage := .queued, order := s.nextOp } })
  else s.modOp id (fun o => { o with body := .job { j with guard := none } })
/-- GUARD_SLOT_READ: the command at the head of its engine's queue reads its guard slot at the first moment at which that is resolved,
and a job past its guard enters the Cellar queue (R145, R153, R305, R416). -/
def execGuardSlotRead (op : Nat) (s : State) : Host.Outcome State Fault Refusal :=
  due "GUARD_SLOT_READ" (match s.op op with
    | some o => (match o.body with
      | .copy c => (match o.pack with
        | none => none
        | some p =>
        if o.done || !c.held || queuedBehind s o then none
        else (nth none (s.pack p).gs (c.guard.getD 0)).map (fun v =>
          if !v then discardCopy s o c
          else
            let t := s.modOp op (fun o => { o with body := .copy { c with held := false } })
            if boxEmpty c.ext then copyDone t op else t))
      | .job j =>
        if o.done || j.stage != .held || j.discarded || unreadBefore s o j then none
        else match j.guard with
        | none => if !jobBehind s o j && decide (queued s j.stack < 64) then some (enterQueue s op j false) else none
        | some n =>
          let read : Option Bool := match o.pack with | some p => nth none (s.pack p).gs n | none => none
          read.map (fun v =>
          if v then enterQueue s op j (jobBehind s o j)
          else
            let gone := { j with discarded := true }
            let s := s.modOp op (fun o => { o with body := .job gone })
            let s := if j.parts.isEmpty then s
              else { s with ops := s.ops ++ [{ id := s.nextOp, grp := s.nextOp, pack := none, launch := o.launch, k := none, body := .job gone }],
                            nextOp := s.nextOp + 1 }
            completeOp s op)
      | _ => none)
    | none => none)

/-! ### What the units compute (R335, R415) -/

/-- Bytes that a base die writes, poison carried or cleared (R407, R420). -/
def dieWrite (s : State) (ph : Nat) (bs : List (BitVec 8)) (bad : Bool) : State :=
  let s := ramWrites s ph bs
  if bad then setPoison s (ph / 4) true else if bs.length = 4 then setPoison s (ph / 4) false else s
/-- An element at a virtual address, widened exactly, as the base die reads it. -/
def dieEl (s : State) (m : PMap) (f : Nat) (va : Nat) : FVal := (fmtOf f).read (dieNat s (m.get va) (fmtBytes f))
/-- Whether the word of a virtual address is poisoned. -/
def dieBad (s : State) (m : PMap) (va : Nat) : Bool := poisoned s (m.get va)
/-- A job's results so far: state, status code and bag, and whether poison was read. -/
structure JobRun where
  s : State
  code : Nat := 0
  bag : Nat := 0
  bad : Bool := false

/-- DOT (R415). -/
def dotJob (s : State) (m : PMap) (r : BitVec 512) : JobRun :=
  let es := fmtBytes (jFmt r)
  let rows := List.range (jN r)
  let cols := List.range (jLen r)
  rows.foldl (fun q i =>
    let at' := fun j => jArg r 0 + i * jP r + es * j
    let acc := cols.foldl (fun (a : W32) j =>
      let w := dieEl q.s m (jFmt r) (at' j)
      let x := dieEl q.s m (jFmt r) (jArg r 1 + es * j)
      if j = 0 then rne32 (fMul w x) else rne32 (fFma .rn w x (f32 a))) 0
    let bad := cols.any (fun j => dieBad q.s m (at' j) || dieBad q.s m (jArg r 1 + es * j))
    { q with s := dieWrite q.s (m.get (jArg r 2 + 4 * i)) (leBytes acc.toNat 4) bad, bad := q.bad || bad }) ⟨s, 0, 0, false⟩
/-- SEGSUM (R335). Bags are pooled in ascending order, which shows only where the output overlaps what the job reads (DESIGN CHOICE,
log 119). -/
def segsumJob (s : State) (m : PMap) (r : BitVec 512) : JobRun :=
  let es := fmtBytes (jFmt r)
  let os := fmtBytes (jOfmt r)
  (List.range (jNbag r)).foldl (fun q b =>
    let lo := dieNat q.s (m.get (jArg r 2 + 4 * b)) 4
    let hi := dieNat q.s (m.get (jArg r 2 + 4 * (b + 1))) 4
    let wrong := decide (hi < lo) || decide (jNidx r < hi)
    let ps := if wrong then [] else (List.range (hi - lo)).map (lo + ·)
    let ix := fun (s : State) p => dieNat s (m.get (jArg r 1 + 4 * p)) 4
    let far := ps.any (fun p => decide (jN r ≤ ix q.s p))
    let poisonHead := dieBad q.s m (jArg r 2 + 4 * b) || dieBad q.s m (jArg r 2 + 4 * (b + 1)) ||
      ps.any (fun p => dieBad q.s m (jArg r 1 + 4 * p))
    let q' := (List.range (jLen r)).foldl (fun (q' : JobRun) j =>
      let at' := fun p => jArg r 0 + ix q'.s p * jP r + es * j
      let v : W32 := if wrong || far then nanBits
        else ps.foldl (fun (a : W32) p =>
          let e := dieEl q'.s m (jFmt r) (at' p)
          if p = lo then rne32 e else rne32 (fAdd .rn (f32 a) e)) 0
      let bad := poisonHead || (!(wrong || far) && ps.any (fun p => dieBad q'.s m (at' p)))
      { q' with s := dieWrite q'.s (m.get (jArg r 3 + os * (b * jLen r + j)))
                  (leBytes ((fmtOf (jOfmt r)).write .rn false 0 (f32 v)) os) bad, bad := q'.bad || bad }) q
    if (wrong || far) && q'.code == 0 then { q' with code := if wrong then 1 else 2, bag := b } else q') ⟨s, 0, 0, false⟩
/-- One ADAMW record from its block and gradient: w, m, v (R415). -/
def adamStep (blk : Nat → FVal) (g w m v : FVal) : W32 × W32 × W32 :=
  let lr := blk 0
  let m' := rne32 (fFma .rn (blk 1) m (f32 (rne32 (fMul (blk 3) g))))
  let v' := rne32 (fFma .rn (blk 2) v (f32 (rne32 (fMul (blk 4) (f32 (rne32 (fMul g g)))))))
  let den := rne32 (fAdd .rn (f32 (rne32 (fSqrt (f32 (rne32 (fMul (f32 v') (blk 8))))))) (blk 5))
  let u := rne32 (fDiv (f32 (rne32 (fMul (f32 m') (blk 7)))) (f32 den))
  let w' := rne32 (fFma .rn (fNeg lr) (f32 (rne32 (fAdd .rn (f32 u) (f32 (rne32 (fMul (blk 6) w)))))) w)
  (w', m', v')
/-- ADAMW: poison goes into the words computed from it (R415, R420). -/
def adamJob (s : State) (m : PMap) (r : BitVec 512) : JobRun :=
  let es := fmtBytes (jFmt r)
  let blk := fun i => f32 (BitVec.ofNat 32 (dieNat s (m.get (jArg r 2 + 4 * i)) 4))
  let blkBad := fun (is : List Nat) => is.any (fun i => dieBad s m (jArg r 2 + 4 * i))
  (List.range (jN r)).foldl (fun q i =>
    let a := jArg r 0 + 16 * i
    let stampBad := dieBad q.s m (a + 12)
    if dieNat q.s (m.get (a + 14)) 2 = jLen r then { q with bad := q.bad || stampBad }
    else
      let el := fun k => f32 (BitVec.ofNat 32 (dieNat q.s (m.get (a + 4 * k)) 4))
      let res := adamStep blk (dieEl q.s m (jFmt r) (jArg r 1 + es * i)) (el 0) (el 1) (el 2)
      let gBad := dieBad q.s m (jArg r 1 + es * i)
      let mBad := blkBad [1, 3] || gBad || dieBad q.s m (a + 4)
      let vBad := blkBad [2, 4] || gBad || dieBad q.s m (a + 8)
      let wBad := blkBad [0, 5, 6, 7, 8] || mBad || vBad || dieBad q.s m a
      let words := [(leBytes res.1.toNat 4, wBad), (leBytes res.2.1.toNat 4, mBad), (leBytes res.2.2.toNat 4, vBad),
        (leBytes (BF16.write .rn false 0 (f32 res.1)) 2 ++ leBytes (jLen r) 2, wBad)]
      { q with s := words.zipIdx.foldl (fun s e => dieWrite s (m.get (a + 4 * e.2)) e.1.1 e.1.2) q.s, bad := q.bad || wBad || stampBad }) ⟨s, 0, 0, false⟩
/-- FILL (R415). -/
def fillJob (s : State) (m : PMap) (r : BitVec 512) : JobRun :=
  { s := (List.range (jN r)).foldl (fun s i => dieWrite s (m.get (jArg r 0 + 4 * i)) (leBytes (jP r) 4) false) s }
/-- The elements of a RAPPLY job in one region (R415, R417). -/
def rapplyPart (s : State) (m : PMap) (r : BitVec 512) (pasid region : Nat) : JobRun :=
  let es := fmtBytes (jFmt r)
  ((List.range (jN r)).filter (fun j => seqKey pasid (jArg r 0 + es * j) == region)).foldl (fun q j =>
    let d := m.get (jArg r 0 + es * j)
    let bad := poisoned q.s d || dieBad q.s m (jArg r 1 + es * j)
    { q with s := dieAdd q.s (fmtOf (jFmt r)) es d (dieEl q.s m (jFmt r) (jArg r 1 + es * j)) bad, bad := q.bad || bad }) ⟨s, 0, 0, false⟩

/-- Whether a unit of a job has failed and no spare took its slices (R430). -/
def unitFailed (s : State) (o : Op) (r : BitVec 512) : Bool := (jobUnits o r).any s.dev.badUnits.contains
/-- The waves of a job, or of a part of it, in these units: where PERMBANKS is below 32, the slots each unit defers are free, DEFERS counts
them, and the job keeps their number and the lowest unit (R418; log 4). -/
def deferWaves (s : State) (units : List Nat) (j : Job) : State × Job :=
  units.foldl (fun r u =>
    let (s, n) := deferSlots r.1 u
    (s, if n = 0 then r.2 else { r.2 with deferred := r.2.deferred + n, unit := if r.2.deferred = 0 then u else min u r.2.unit })) (s, j)
/-- The units that own the elements of a RAPPLY job in one region (R412, R417). -/
def partUnits (s : State) (o : Op) (r : BitVec 512) (region : Nat) : List Nat :=
  (((List.range (jN r)).map (fun i => jArg r 0 + fmtBytes (jFmt r) * i)).filter (fun a => seqKey (s.opPasid o) a == region)).map
    (fun a => unitOf (o.tr.get a)) |>.eraseDups
/-- A running job of a kind computes. -/
def computes (name : String) (kind op : Nat) (s : State) (f : State → PMap → BitVec 512 → JobRun) : Host.Outcome State Fault Refusal :=
  due name (match s.op op with
    | some o => (match o.job? with
      | some j =>
        if o.done || j.stage != .running || jKind j.raw != kind then none
        else
          let (s, j) := deferWaves s (jobUnits o j.raw) j
          let q := f s o.tr j.raw
          let next := { j with stage := JStage.computed, code := q.code, bag := q.bag, poison := q.bad || unitFailed s o j.raw }
          some (q.s.modOp op (fun o => { o with body := .job next }))
      | none => none)
    | none => none)
/-- CELLAR_DOT. -/
def execCellarDot (op : Nat) (s : State) : Host.Outcome State Fault Refusal := computes "CELLAR_DOT" 0 op s dotJob
/-- CELLAR_SEGSUM. -/
def execCellarSegsum (op : Nat) (s : State) : Host.Outcome State Fault Refusal := computes "CELLAR_SEGSUM" 1 op s segsumJob
/-- CELLAR_ADAMW. -/
def execCellarAdamw (op : Nat) (s : State) : Host.Outcome State Fault Refusal := computes "CELLAR_ADAMW" 2 op s adamJob
/-- CELLAR_FILL. -/
def execCellarFill (op : Nat) (s : State) : Host.Outcome State Fault Refusal := computes "CELLAR_FILL" 4 op s fillJob
/-- CELLAR_RAPPLY: one region's part in its turn; a discarded job's part retires empty (R147, R153, R417). -/
def execCellarRapply (op region : Nat) (s : State) : Host.Outcome State Fault Refusal :=
  due "CELLAR_RAPPLY" (match s.op op with
    | some o => (match o.job? with
      | some j => (match j.parts.find? (fun q => q.region == region && partTurn s q) with
        | some q =>
          let parts := j.parts.map (fun r => if r.region == region then { r with applied := true } else r)
          let all := parts.all (·.applied)
          if j.discarded then
            if o.pack.isSome then none else
            let t := passPart s q
            some (if all then { t with ops := t.ops.filter (fun r => r.id != op) }
                  else t.modOp op (fun o => { o with body := .job { j with parts := parts } }))
          else if o.done || j.stage != .running then none
          else
            let (s, j) := deferWaves s (partUnits s o j.raw region) j
            let w := rapplyPart s o.tr j.raw (s.opPasid o) region
            let next := { j with parts := parts, poison := j.poison || w.bad || unitFailed s o j.raw, stage := if all then JStage.computed else JStage.running }
            some ((passPart w.s q).modOp op (fun o => { o with body := .job next }))
        | none => none)
      | none => none)
    | none => none)

/-! ### Completion -/

/-- The event record of a job (R336, R420). -/
def eventRecord (j : Job) (clk : W64) : BitVec 256 :=
  let fault := if j.poison then summaryOf cMEMERR false false 0 else 0
  0#48 ++ BitVec.ofNat 16 (jTag j.raw) ++ fault ++ BitVec.ofNat 32 j.bag ++ 0#16 ++ BitVec.ofNat 16 j.code ++ clk
/-- CELLAR_JOB_COMPLETE: the lines open again, the event record or, for poison read without one, the launch's completion record, the
DEFERRAL record, the arrival, then the decrement; a node completes (R126, R305, R336, R357, R403, R407, R418, R420). -/
def execCellarJobComplete (op : Nat) (s : State) : Host.Outcome State Fault Refusal :=
  due "CELLAR_JOB_COMPLETE" (match s.op op with
    | some o => (match o.job? with
      | some j =>
        if o.done || j.discarded || j.stage != .computed || (j.deferred != 0 && recordsFull s j.ring) then none
        else
          let t := s.modOp op (fun o => { o with shut := [] })
          let ev := jEvent j.raw
          let t := if ev = 0 then (if j.poison && o.node.isNone then memErrRecord t o.launch else t)
            else engineWrite t ((leBytes (eventRecord j s.clk).toNat 32).zipIdx.map (fun e => (o.tr.get (ev + e.2), e.1)))
          let queue := match o.node with
            | some (r, _) => (match s.replays[r]? with | some q => q.queue | none => 255)
            | none => (s.launch o.launch).queue
          let t := if j.deferred = 0 then t
            else produce t j.ring (mkRecord (BitVec.ofNat 64 (jTag j.raw)) (BitVec.ofNat 64 (j.deferred % 2 ^ 32 + 2 ^ 32 * j.unit)) 7 3 queue)
          (match o.pack with
          | some p =>
            let blk := (s.pack p).block
            let done := { t with ops := t.ops.map (fun (q : Op) => if q.id == op then { q with done := true } else q) }
            let u := match j.bar with
              | some b =>
                let v := done.modBlock blk (fun k => { k with bars := modNth k.bars b (fun x => { x with arr := x.arr + 1 }) })
                endPhase (endExclusion t v blk j.stamp) blk b
              | none => done
            some (completeOp u op)
          | none => some (settle (nodeStatus { t with ops := t.ops.filter (fun q => q.id != op) } o.node 0)))
      | none => none)
    | none => none)

end Sys2Proof.Machine
end

