-- ==== Sys2Proof/Machine/Fetch.lean ====
section
/-!
DEFINITION. Fetching an instruction (R185, R202), and the placing of a word where the next step fetches it.
-/
namespace Sys2Proof.Machine
open Sys2Proof

/-- The word at the PC of a slot inside a clause, with the second word of a two-word instruction where the clause holds one, decoded;
`none` where the bits are no instruction (R199 to R201). Code words go through the core's L1 TLB, and a page without a translation
stalls or faults the instruction at the PC (DESIGN CHOICE, log 98). -/
def fetchInstr (s : State) (p k : Nat) : M (Option Instr) :=
  match ((s.pack p).slot k).path, ((s.pack p).slot k).clause with
  | some q, some c => do
    let w ← fetchCode s p k q.pc
    let x ← if isPair w && decide (q.pc + 8 < c.fall) then fetchCode s p k (q.pc + 8) else .ok 0
    return decode w x
  | _, _ => .ok none

/-- A word that is no instruction, or one that cannot be fetched: the cause taken at the word (R200, R201, R402). -/
def fetchFails (s : State) (p k : Nat) (h : Halt) : State :=
  match ((s.pack p).slot k).path, ((s.pack p).slot k).clause with
  | some q, some c =>
    let mates := s.liveTeam p
    let cx : Cx := ⟨if (s.pack p).gang && decide (1 < mates.length) then mates else [p], k, q.pc, c⟩
    (match h with
     | .stall t w => cx.packs.foldl (fun t p => t.modSlot p k (fun sl => sl.block w t.clk.toNat)) t
     | .exc e => takeExn cx s e
     | .handled t => t)
  | _, _ => s

/-- Whether a term is an event: something a unit does, not a word of a program. -/
def isEvent (i : Instr) : Bool := (encode i).isEmpty

/-- The pack placed by `placeWord`: every register zero, in the lead slot inside a clause that holds the word. -/
def wordPack (l b : Nat) (c : Clause) : Pack :=
  { launch := l, block := b, pk := 0, core := 0,
    lead := { path := some ⟨8, 0xFFFF, none⟩, clause := some c, port := some 0 },
    v := List.replicate (16 * 384) 0, tags := List.replicate 384 false, s := List.replicate 96 0,
    p := List.replicate 7 0, q := List.replicate 128 0, gs := List.replicate 8 none, fholds := List.replicate 12 0,
    k := List.replicate 6 0, refs := List.replicate 16 0, pscr := List.replicate 4 0 }

/-- A launch, a block, a pack, a translation and a clause placed so that the word is the next instruction: the code at
DRAM offset 0 under PASID 0 (the load that stands outside the machine, log 9). -/
def placeWord (s : State) (w0 w1 : W64) : State :=
  let i := decode w0 w1
  let n := match i with | some j => j.words | none => 1
  let cls := match i with | some j => j.cls.getD .alu | none => .alu
  let hdr : W64 := BitVec.ofNat 64 (0xFF000000 + 8 * (n - 1)) ||| (cls.code.setWidth 64)
  let s := engineWrite s ((leBytes hdr.toNat 8 ++ leBytes w0.toNat 8 ++ leBytes w1.toNat 8).zipIdx.map (fun e => (e.2, e.1)))
  let l := s.launches.length
  let b := s.blocks.length
  let p := s.packs.length
  let raw : BitVec 1024 := BitVec.ofNat 1024 (384 * 2 ^ 96 + 2 ^ 128 + 2 ^ 160 + 2 ^ 176 + 16 * 2 ^ 192 + 2 ^ 208 + 2 ^ 224)
  { s with
    launches := s.launches ++ [{ stat := .running, queue := 0, ring := 0, part := 0, pasid := 0, addr := 0, raw := raw,
                                 grant := 0, nextBlock := 1, tbinds := List.replicate 16 none }],
    blocks := s.blocks ++ [{ launch := l, b := 0, cores := [0], perCore := 1, npacks := 1,
                             bars := List.replicate 16 {}, slots := List.replicate 32 none, tiles := List.replicate 8 {} }],
    packs := s.packs ++ [wordPack l b (clauseOf 0 hdr cls)],
    tlbs := ⟨.l1 0, 0, 0, 2 ^ 30, s.dev.bar2 + 2 ^ 39, true, true⟩ :: s.tlbs,
    agenda := .issue p 0 :: s.agenda }

end Sys2Proof.Machine
end

