-- ==== Sys2Proof/Machine/Sched.lean ====
section
/-!
DEFINITION. What happens at a clause header (R16 to R18, R26, R31 to R35, R143, R186, R187, R407), forced issue, and the
instructions that a waiting slot issues when what it waits for has come (R87, R141, R218, R363).
-/
namespace Sys2Proof.Machine
open Sys2Proof

/-! ### Clause headers -/

/-- The members that act together at a header: the live team while it is ganged, else the pack. -/
def State.together (s : State) (p : Nat) : List Nat :=
  let mates := s.liveTeam p
  if (s.pack p).gang && decide (1 < mates.length) then mates else [p]
/-- Whether a partition is taking its packs out of the cores, or has taken them (R387). -/
def State.halting (s : State) (q : Nat) : Bool := (s.part q).state != 0
/-- Whether a slot stands at a clause header where it may take a cause (R32, R372, R383, R406). -/
def standsAt (s : State) (p k : Nat) : Bool :=
  let x := s.pack p
  let sl := x.slot k
  sl.path.isSome && sl.clause.isNone && !x.retired && !x.stopped && (s.launch x.launch).stat == .running &&
  !(match x.region with | some r => r.aborted | none => false) && (k == 0 || !s.isGang p)
/-- Whether a slot stands at a clause header that it may pass: its partition does not take its pack out of the core (R32, R383, R387,
R406). -/
def atHeader (s : State) (p k : Nat) : Bool :=
  standsAt s p k && !((s.launchOf p).preempt && s.halting (s.launchOf p).part)
/-- The context of a header: a cause taken there names the header's offset. -/
def headerCx (s : State) (p k : Nat) : Cx := ⟨s.together p, k, (s.path p k).pc, ⟨(s.path p k).pc, 0, .alu, 15, 15, 0⟩⟩
/-- Slots of several packs blocked. -/
def blockSlots (s : State) (ps : List Nat) (k : Nat) (w : Stall) : State :=
  ps.foldl (fun s p => s.modSlot p k (fun sl => sl.block w s.clk.toNat)) s
/-- What a header comes to when something stops it. -/
def headerHalt (s : State) (cx : Cx) : Halt → State
  | .stall t w => blockSlots t cx.packs cx.slot w
  | .exc e => takeExn cx s e
  | .handled t => t
/-- The first cause of a path that waits for its next header (R143, R402, R407). -/
def pendingFor (x : Pack) (m : Lanes) : Option Pending := x.pending.find? (fun e => e.slot.isNone && e.lanes &&& m != 0)
/-- Whether a slot is about to take a cause where it stands (R143, R301). -/
def Pack.taking (x : Pack) (k : Nat) : Bool := x.pending.any (fun e => e.slot == some k)
/-- Arrival: the lanes go to their join entry, the slot is empty and refilled; ILLTGT where no entry takes them (R16, R17). -/
def arrival (s : State) (cx : Cx) : State :=
  match endRegions s cx.slot cx.packs with
  | .error h => headerHalt s cx h
  | .ok s =>
    let lost := cx.packs.filter (fun p =>
      let q := s.path p cx.slot
      (arriveAt q.pc q.mask (s.pack p).kennel).isNone)
    if lost.isEmpty then
      settleGang cx (eachPack s cx.packs (fun p x =>
        let q := s.path p cx.slot
        (({ x with kennel := (arriveAt q.pc q.mask x.kennel).getD x.kennel }).modSlot cx.slot Slot.emptied).refillFrom x.kennel))
    else takeExn cx s { cause := cILLTGT, info := BitVec.ofNat 64 cx.pc, who := lost.map (fun p => (p, BitVec.ofNat 64 cx.pc)) }
/-- Whether both slots of a pack stand at one header with one RPC (R18). -/
def canMerge (x : Pack) : Bool :=
  x.lead.clause.isNone && x.heel.clause.isNone && (match x.lead.path, x.heel.path with
    | some a, some b => a.pc == b.pc && a.rpc == b.rpc | _, _ => false)
/-- The merge into the lead slot, the heel slot refilled (R17, R18). The lead slot's issue count of R34 goes on (DESIGN CHOICE, log 97). -/
def Pack.merge (x : Pack) : Pack :=
  match x.lead.path, x.heel.path with
  | some a, some b => ({ x with lead := { x.lead with path := some { a with mask := a.mask ||| b.mask }, stall := none }, heel := x.heel.emptied }).refill
  | _, _ => x
/-- Whether a split team meets the conditions of ganging at a header (R24, R26). Members in different privilege modes have different code
bases, so that equal offsets are not the same PC: they stay apart (DEDUCED, log 106). -/
def canRegang (s : State) (p : Nat) : Bool :=
  let ps := s.liveTeam p
  (s.launchOf p).teamW != 16 && !(s.pack p).gang && stillGanged s ps &&
  ps.all (fun q => (s.pack q).lead.clause.isNone && (s.pack q).priv == (s.pack p).priv && !(s.pack q).stopped &&
    !(match (s.pack q).region with | some r => r.aborted | none => false))
/-- Whether a slot counts as standing at a header: no word of its clause has issued, and so no XMV there waits for its pass (R301, R387). -/
def Slot.atTop (sl : Slot) : Bool :=
  match sl.path, sl.clause with
  | some q, some c => decide (q.pc ≤ c.hdr + 8) && sl.stall != some .xmv
  | _, _ => true
/-- A slot put back to the header it counts as standing at (R387). -/
def Slot.toHeader (sl : Slot) : Slot :=
  { sl with path := sl.path.map (fun q => { q with pc := match sl.clause with | some c => c.hdr | none => q.pc }), clause := none,
            stall := if sl.stall = some .region then sl.stall else none }
/-- Whether the kennel rotates in a slot at its header (R34). -/
def rotates (s : State) (p k : Nat) : Bool :=
  let x := s.pack p
  let sl := x.slot k
  hasPath x.kennel && (decide (256 ≤ sl.issued) || (sl.blocked && decide (sl.since + 1024 ≤ s.clk.toNat)))
/-- The rotation of a slot, an open region ended first (R34, R404). -/
def rotation (s : State) (p k : Nat) : State :=
  let cx := headerCx s p k
  match endRegions s k cx.packs with
  | .error h => headerHalt s cx h
  | .ok t => settleGang cx (t.modPack p (fun x => x.rotate k))
/-- The body words that are second words of two-word instructions, from word `j` on: the opcode alone tells (R187, R199, R200). -/
def secondWords (s : State) (p k hdr count : Nat) : Nat → Nat → M (List Nat)
  | 0, _ => .ok []
  | n + 1, j =>
    if count ≤ j then .ok []
    else do
      let w ← fetchCode s p k (hdr + 8 * (j + 1))
      let r ← secondWords s p k hdr count n (j + (if isPair w then 2 else 1))
      return if isPair w then (j + 1) :: r else r
/-- The clause at a header: the word must be a header, its wait flags clear in every live member (DESIGN CHOICE, log 128), and
its fields legal; then it starts (R31, R186, R187, R189). -/
def startClause (s : State) (cx : Cx) : M State := do
  let p := cx.packs.headD 0
  let w ← fetchCode s p cx.slot cx.pc
  failIf (!isHeader w) cILLTGT (BitVec.ofNat 64 cx.pc)
  waitIf (cx.packs.any (fun q => (List.range 12).any (fun i => w.getLsbD (12 + i) && decide (0 < nth 0 (s.pack q).fholds i)))) s .interlock
  failIf (!headerOk w) cILLOP (BitVec.ofNat 64 cx.pc)
  let cl := clauseOf cx.pc w ((Cls.ofCode (w.extractLsb' 0 3)).getD .alu)
  let second ← if cl.selB = 0 then .ok [] else secondWords s p cx.slot cx.pc cl.count 17 0
  failIf (second.any cl.selB.getLsbD) cILLOP (BitVec.ofNat 64 cx.pc)
  return cx.packs.foldl (fun s q => (s.leaveMerge (waiterOf q cx.slot)).modSlot q cx.slot (fun sl =>
    { sl with path := sl.path.map (fun r => { r with pc := cx.pc + 8 }), clause := some cl, stall := none })) s

/-! ### Ports, and which clause starts next -/

/-- Whether a slot's clause is on its port (R31). -/
def Slot.onPort (sl : Slot) : Bool := sl.path.isSome && sl.clause.isSome && sl.port.isSome && !sl.away
/-- Whether two packs share a quarter (R6). -/
def Pack.quarterMate (x y : Pack) : Bool := x.core == y.core && x.quarter == y.quarter
/-- Whether no clause is on port `n` of a pack's quarter (R29, R31). -/
def portFree (s : State) (p n : Nat) : Bool :=
  s.packs.all (fun y => !y.quarterMate (s.pack p) || y.retired || [y.lead, y.heel].all (fun sl => !(sl.onPort && sl.port == some n)))
/-- The lowest of the two ports of a pack's quarter that no clause is on. -/
def freePort (s : State) (p : Nat) : Option Nat := [0, 1].find? (portFree s p)
/-- Whether something other than the start of its clause comes first at a slot's header (R32). -/
def headerEvent (s : State) (p k : Nat) : Bool :=
  let q := s.path p k
  (headerCx s p k).packs.any (fun m => (pendingFor (s.pack m) (s.path m k).mask).isSome) || q.rpc == some q.pc ||
  canMerge (s.pack p) || (k == 0 && canRegang s p) || rotates s p k
/-- Whether a slot is ready at a clause header: the clause can start, no flag or translation being waited for (R31, R33, R35, R355). -/
def clauseReady (s : State) (p k : Nat) : Bool :=
  atHeader s p k && !headerEvent s p k && (match startClause s (headerCx s p k) with | .error (.stall _ _) => false | _ => true)
/-- Whether the last issue of slot `k` is older than that of the other slot; one that never issued is oldest, and the lead slot goes
first of equals (R33; log 105). -/
def Pack.olderSlot (x : Pack) (k : Nat) : Bool :=
  match (x.slot k).last, (x.slot (1 - k)).last with
  | none, some _ => true
  | some _, none => false
  | none, none => k == 0
  | some a, some b => decide (a < b) || (a == b && k == 0)
/-- Whether a pack of a `.det` launch goes on in its other slot while one waits so: at a barrier or a collective, or set back to its
restart point (R27, R363, R406). -/
def Stall.sharesPack : Stall → Bool
  | .bwait _ => true | .collective => true | .region => true | _ => false
/-- Whether the other slot of a pack of a `.det` launch keeps slot `k` from starting: one clause at a time, and at headers the older slot
first also while it waits, so that no stamp depends on how long a wait takes (R33, R346, R361, R364; log 105). -/
def detHolds (s : State) (p k : Nat) : Bool :=
  let o := (s.pack p).slot (1 - k)
  (s.launchOf p).det && o.path.isSome && (match o.stall with | some w => !w.sharesPack | none => true) &&
  (o.clause.isSome || (atHeader s p (1 - k) && (headerEvent s p (1 - k) || !(s.pack p).olderSlot k)))
/-- Whether what slot `k` waits for inside its clause, away from its port, has come (R27, R37, R143, R218, R219, R290, R363). -/
def waitOver (s : State) (p k : Nat) : Bool :=
  let x := s.pack p
  let word := match fetchInstr s p k with | .ok i => i | .error _ => none
  match (x.slot k).stall with
  | some .slpt => (match word with | some (.slpt _ a) => !decide (s.clk < x.srcs a) | _ => true)
  | some .waitk => (match word with | some (.waitk _ c n) => decide (nth 0 x.k c.ix ≤ n.toNat) | _ => true)
  | some (.bwait b) => (nth {} (s.block x.block).bars b).phase != nth 0 x.refs b
  | some .collective => teamArrived s p k && (arrivedAt s p (s.codeBase p + (s.path p k).pc)).head? == some k
  | some .det => detTurn s p
  | some .xmv => false
  | some .region => false
  | _ => true
/-- Whether the other slot of a pack, inside its clause and waiting for nothing that has not come, has had none of the pack's last 495
issues: slot `k` then starts no clause, whose 16 words would take it past the 512 of R36 (log 105). -/
def otherDue (s : State) (p k : Nat) : Bool :=
  let x := s.pack p
  let o := x.slot (1 - k)
  o.path.isSome && o.clause.isSome && decide (o.seen + 495 ≤ x.stamp) && (o.onPort || waitOver s p (1 - k))
/-- Whether slot `k` is the one of its pack that starts the next clause (R33, R36). -/
def slotGoes (s : State) (p k : Nat) : Bool :=
  clauseReady s p k && (!clauseReady s p (1 - k) || (s.pack p).olderSlot k) && !detHolds s p k && !otherDue s p k
/-- Whether a pack has a clause ready to start. -/
def hasReady (s : State) (p : Nat) : Bool := slotGoes s p 0 || slotGoes s p 1
/-- Whether a pack is forced: it has not issued for 1,024 clocks (R35), which do not count from a YIELD that ended a forcing to the next
issue (R355). -/
def State.isForced (s : State) (x : Pack) : Bool := x.forced || (!x.uncounted && decide (x.last + 1024 ≤ s.clk.toNat))
/-- Whether members of a pack's team wait at a collective that it has not reached (R27). -/
def teamAwaits (s : State) (p : Nat) : Bool :=
  let at' := fun (q : Nat) => !(collSlots s q).isEmpty
  !at' p && (s.liveTeam p).any at'
/-- The rank of a ready pack in its quarter, the least first: packs that stand back after YIELD last (R217); forced packs, oldest first;
then priority; then the members that a team waits for; then age (R27, R35, R355; of equals the lower number, log 105). A ganged
team stands back, is forced and has the age as its first member says (DESIGN CHOICE, log 118). -/
def schedRank (s : State) (p : Nat) : List Nat :=
  let x := s.pack p
  let back := if x.yielded then 1 else 0
  if s.isForced x then [back, 0, x.last, 0, 0, p]
  else [back, 1, 7 - (s.launchOf p).prio, if teamAwaits s p then 0 else 1, x.last, p]
/-- The lexicographic order of ranks. -/
def rankLt : List Nat → List Nat → Bool
  | a :: as, b :: bs => decide (a < b) || (a == b && rankLt as bs)
  | _, _ => false
/-- The packs of a pack's quarter with a clause ready to start, a ganged team as its first member. -/
def readyMates (s : State) (p : Nat) : List Nat :=
  (List.range s.packs.length).filter (fun q =>
    (s.pack q).quarterMate (s.pack p) && (s.together q).headD q == q && hasReady s q)
/-- Whether the quarter's scheduler chooses a pack's ready clause (R35). -/
def isChosen (s : State) (p : Nat) : Bool :=
  let me := (s.together p).headD p
  (readyMates s p).all (fun q => q == me || rankLt (schedRank s me) (schedRank s q))
/-- A started clause on its port; the packs of the quarter that stood back do so no more (R31, R217). -/
def onPortIn (s : State) (cx : Cx) (n : Nat) : State :=
  let x := s.pack (cx.packs.headD 0)
  let forced := s.isForced x
  let s := { s with packs := s.packs.map (fun y => if y.quarterMate x then { y with yielded := false } else y) }
  cx.packs.foldl (fun s q => s.modPack q (fun y => { y.modSlot cx.slot (fun sl => { sl with port := some n, away := false }) with forced := forced })) s
/-- Whether slot `k` must give its turn to the pack's other slot, on its port, which has had none for 511 issues of the pack (R36;
log 105). -/
def otherOverdue (s : State) (p k : Nat) : Bool :=
  let x := s.pack p
  let o := x.slot (1 - k)
  o.onPort && decide (o.seen + 511 ≤ x.stamp)
/-- Whether a path counts as at the header of the clause it has started, and stops there while its partition halts (R387). -/
def haltsHere (s : State) (p k : Nat) : Bool :=
  (s.launchOf p).preempt && s.halting (s.launchOf p).part && ((s.pack p).slot k).atTop
/-- THE TURN of slot `k` of pack `p` inside its clause, with the focus on it: a clause that has left its port goes on when that port is
free, and one that a return has put back inside its clause on any free port; a forced pack's ready clause takes a free port before either
(R31, R35, R376; log 105). `none` where the slot has no turn now. -/
def turnOf (s : State) (p k : Nat) : Option State :=
  let x := s.pack p
  let sl := x.slot k
  let turn := fun (n : Option Nat) => (s.together p).foldl (fun t q => t.modPack q (fun y => y.modSlot k (fun sl =>
    { sl with seen := y.stamp, port := n, away := false }))) { s with focus := (p, k) }
  if sl.path.isNone || sl.clause.isNone || x.retired || x.stopped || x.taking k || otherOverdue s p k || haltsHere s p k then none
  else if sl.onPort then some (turn sl.port)
  else if (s.launchOf p).det && (x.slot (1 - k)).onPort then none
  else if (readyMates s p).any (fun q => q != (s.together p).headD p && s.isForced (s.pack q)) then none
  else match sl.port with
    | some n => if portFree s p n then some (turn (some n)) else none
    | none => (freePort s p).map (fun n => turn (some n))

/-- The paths of a halting partition that count as at the header of the clause they have started stand there again, off their ports; each
later starts that clause afresh (R387). -/
def backToHeaders (s : State) : State :=
  let back := fun (x : Pack) (sl : Slot) => let l := s.launch x.launch
    if l.preempt && (s.part l.part).state == 1 && sl.clause.isSome && sl.atTop then sl.toHeader else sl
  { s with packs := s.packs.map (fun x => { x with lead := back x x.lead, heel := back x x.heel }) }
/-- CLAUSE_HEADER: at the header of a slot, in this order, a pending cause, also where the pack is about to be taken out of its core (R372;
DESIGN CHOICE, log 131), the arrival, the merge, the regang, the rotation, or else the start of the clause, when a port is free and the
scheduler chooses it. -/
def execClauseHeader (p slot : Nat) (s : State) : Host.Outcome State Fault Refusal :=
  due "CLAUSE_HEADER" (
    if !standsAt s p slot then none
    else
      let cx := headerCx s p slot
      let q := s.path p slot
      match cx.packs.findSome? (fun m => (pendingFor (s.pack m) (s.path m slot).mask).map (fun e => (m, e))) with
      | some (m, e) =>
        (match beforeTrap s slot [m] with
         | .error h => some (headerHalt s cx h)
         | .ok t => some (takeExn cx (t.modPack m (fun x => { x with pending := x.pending.erase e }))
             { cause := e.cause, info := e.info, who := [(m, e.info)] }))
      | none =>
        if !atHeader s p slot then none
        else if q.rpc = some q.pc then some (arrival s cx)
        else if canMerge (s.pack p) then some (s.modPack p Pack.merge)
        else if slot = 0 ∧ canRegang s p then some (eachPack s (s.liveTeam p) (fun _ x => { x with gang := true }))
        else if rotates s p slot then some (rotation s p slot)
        else match startClause s cx with
          | .error (.stall t w) => some (headerHalt s cx (.stall t w))
          | r => if !slotGoes s p slot || !isChosen s p then none
            else (freePort s p).map (fun n => match r with
              | .ok t => onPortIn t cx n
              | .error h => headerHalt s cx h))
/-- ROTATION_BLOCK_TIMEOUT: a slot blocked for 1,024 clocks at its header, where it also stands while no word of its clause has
issued (R34, R374, R387). -/
def execRotationBlockTimeout (p slot : Nat) (s : State) : Host.Outcome State Fault Refusal :=
  due "ROTATION_BLOCK_TIMEOUT" (
    let sl := (s.pack p).slot slot
    let t := s.modSlot p slot Slot.toHeader
    if sl.atTop && !(s.pack p).taking slot && atHeader t p slot && hasPath (s.pack p).kennel && sl.blocked && decide (sl.since + 1024 ≤ s.clk.toNat)
    then some (rotation t p slot) else none)
/-- FORCED_ISSUE: a pack with a ready clause that has not issued for 1,024 clocks goes first (R35). -/
def execForcedIssue (p : Nat) (s : State) : Host.Outcome State Fault Refusal :=
  due "FORCED_ISSUE" (
    let x := s.pack p
    if hasReady s p && !x.forced && s.isForced x then some (s.modPack p (fun x => { x with forced := true })) else none)

/-! ### Waiting slots -/

/-- The instruction of a slot that waits for `w` is issued again, where it is one of `run`. -/
def reissue (name : String) (p k : Nat) (s : State) (ok : Bool) (w : Stall → Bool) (run : Instr → Option (State → Host.Outcome State Fault Refusal)) :
    Host.Outcome State Fault Refusal :=
  match ok && (match ((s.pack p).slot k).stall with | some v => w v | none => false), turnOf s p k with
  | true, some t => (match fetchInstr t p k with
    | .ok (some i) => (match run i with | some f => f t | none => .fault (.notDue name))
    | _ => .fault (.notDue name))
  | _, _ => .fault (.notDue name)
/-- SLPT_WAKE (R218). -/
def execSlptWake (p slot : Nat) (s : State) : Host.Outcome State Fault Refusal :=
  reissue "SLPT_WAKE" p slot s true (· == .slpt) (fun i => match i with
    | .slpt g a => if s.clk < (s.pack p).srcs a then none else some (execSlpt g a)
    | _ => none)
/-- MSHR_GRANT: a rejected load takes the freed MSHRs and issues (R86, R87). -/
def execMshrGrant (p slot : Nat) (s : State) : Host.Outcome State Fault Refusal :=
  reissue "MSHR_GRANT" p slot s true (· == .mshr) (fun i => match i with
    | .ld g sx wd pol d m => some (execLd g sx wd pol d m)
    | .sld g sx wd pol d m => some (execSld g sx wd pol d m)
    | .ild g o d a b => some (execIld g o d a b)
    | .ildg g o d a b => some (execIldg g o d a b)
    | .gdld g d m => some (execGdld g d m)
    | .hfind g d a b => some (execHfind g d a b)
    | .nbr g d a b => some (execNbr g d a b)
    | _ => none)
/-- COPY_ISSUE_PROBE: a courier copy that waits at issue reads its waybill and probes its pages (R141). -/
def execCopyIssueProbe (p slot : Nat) (s : State) : Host.Outcome State Fault Refusal :=
  reissue "COPY_ISSUE_PROBE" p slot s true (fun _ => true) (fun i => match i with
    | .cpy g out late gen gs bar zs org ext d m => some (execCpy g out late gen gs bar zs org ext d m)
    | .cpyr g fmt late gen gs bar zs org ext d m => some (execCpyr g fmt late gen gs bar zs org ext d m)
    | _ => none)
/-- DET_SYNC_EFFECT: a synchronising operation whose key is the lowest takes effect (R362, R363). -/
def execDetSyncEffect (p slot : Nat) (s : State) : Host.Outcome State Fault Refusal :=
  reissue "DET_SYNC_EFFECT" p slot s (detTurn s p) (· == .det) (fun i => match i with
    | .atom g op wd d m => some (execAtom g op wd d m)
    | .acas g wd d m => some (execAcas g wd d m)
    | .fatom g op fmt d m => some (execFatom g op fmt d m)
    | .ispl g o a b c => some (execIspl g o a b c)
    | .hins g d a b c => some (execHins g d a b c)
    | .binit g d imm => some (execBinit g d imm)
    | .barr g a => some (execBarr g a)
    | .bjoin g a => some (execBjoin g a)
    | .bleave g a => some (execBleave g a)
    | .cpyr g fmt late gen gs bar zs org ext d m => some (execCpyr g fmt late gen gs bar zs org ext d m)
    | .dsync g => some (execDsync g)
    | .nlaunch g ben gen bar gs m => some (execNlaunch g ben gen bar gs m)
    | .post g d m => some (execPost g d m)
    | _ => none)

end Sys2Proof.Machine
end

