-- ==== Sys2Proof/Machine/Launch.lean ====
section
/-!
DEFINITION. Submission queues, admission of launches and placement of blocks and caravans (R347 to R354).
-/
namespace Sys2Proof.Machine
open Sys2Proof

/-! ### Submission queues -/

/-- Entries of a queue's ring: SIZE 13 to 15 read as 12 (R347). -/
def ringSize (size : Nat) : Nat := 2 ^ (min size 12 + 4)
/-- Whether the registers answer: not when bring-up has failed, but for BOOTSTAT, HEALTH and ATTCMD (R427). -/
def State.answers (s : State) : Bool := bitsAt s.dev.bootstat 0 4 != 15
/-- Fields of QCTL (R347). -/
def Queue.en (q : Queue) : Bool := q.ctl.getLsbD 7
def Queue.prio (q : Queue) : Nat := bitsAt q.ctl 4 3
def Queue.pasid (q : Queue) : Nat := bitsAt q.ctl 32 20
def Queue.entries (q : Queue) : Nat := ringSize (bitsAt q.ctl 0 4)
/-- Queue `q`. -/
def State.queue (s : State) (q : Nat) : Queue := nth {} s.queues q
/-- `s` with queue `q` changed. -/
def State.modQueue (s : State) (q : Nat) (f : Queue → Queue) : State := { s with queues := modNth s.queues q f }
/-- The address of a queue's head entry (R347). -/
def Queue.headAddr (q : Queue) : Nat := bitsAt q.base 0 57 + 64 * (q.head.toNat % q.entries)
/-- `n` bytes read by the command processor at the L2 through the L2 TLB; it waits for translations, closed lines and requests sent back to
their pages (R126, R347, R426). Its ATS and page requests count in the queue's partition (DEDUCED, log 107). -/
def cpRead (s : State) (q pasid va n : Nat) : M (State × Nat) := do
  let m ← probe s .l2 (Config.queuePart q % 4) pasid (queueWaiter q) (pagesOf va n false)
  let foot := physRanges m [(va, n)]
  waitIf (anyClosed s foot || behindRelay s foot) s .queue
  let s := closeWindows s (linesOf foot)
  return (s, vNat s m va n)
/-- The head entry of a queue, where its translation is at hand. -/
def headEntry (s : State) (q : Nat) : Option (BitVec 512) :=
  let r := s.queue q
  match cpRead s q r.pasid r.headAddr 64 with
  | .ok (_, v) => some (BitVec.ofNat 512 v)
  | .error _ => none
/-- Fields of a command entry (R348). -/
def eOpc (e : BitVec 512) : Nat := bitsAt e 64 4
def eFence (e : BitVec 512) : Bool := e.getLsbD 68
def ePtr (e : BitVec 512) : Nat := bitsAt e 0 57
def eNpatch (e : BitVec 512) : Nat := bitsAt e 72 8
def ePatch (e : BitVec 512) : Nat := bitsAt e 128 57
/-- Whether a command entry is legal (R348). -/
def entryOk (e : BitVec 512) : Bool :=
  bitsAt e 185 327 == 0 && bitsAt e 80 48 == 0 && bitsAt e 69 3 == 0 && bitsAt e 57 7 == 0 && decide (eOpc e ≤ 2)
/-- Whether the head command of a queue can start: the queue is read and holds an entry, FENCE is satisfied, and a launch's
partition is in RUN (R347, R348, R387). A head entry whose translation is not at hand counts as one that can start: the command
processor waits for it (DESIGN CHOICE, log 120). -/
def canStart (s : State) (q : Nat) : Bool :=
  let r := s.queue q
  r.en && r.head != r.tail && bitsAt s.dev.bootstat 0 4 == 5 &&
  (match headEntry s q with
   | none => true
   | some e => (!eFence e || r.running == 0) && !(eOpc e == 1 && s.halting (Config.queuePart q % 4)))
/-- Whether the head command of a queue has been able to start for 2^20 clocks (R349). -/
def Queue.overdue (q : Queue) (clk : Nat) : Bool :=
  q.starved || (match q.since with | some t => decide (t + 2 ^ 20 ≤ clk) | none => false)
/-- The queue that the command processor serves next: an overdue one, the lowest first, else by PRIO and in round-robin order
after the last one served (R349). -/
def nextQueue (s : State) : Option Nat :=
  let cand := (List.range 64).filter (canStart s)
  match cand.find? (fun q => (s.queue q).overdue s.clk.toNat) with
  | some q => some q
  | none =>
    let after := fun (q : Nat) => show Nat from (q + 63 - s.lastQueue) % 64
    (match cand with
     | [] => none
     | c :: cs => some (cs.foldl (fun b q =>
        if (s.queue b).prio < (s.queue q).prio then q
        else if (s.queue b).prio = (s.queue q).prio ∧ after q < after b then q else b) c))
/-- Since when the head command of each queue has been able to start (R349). -/
def markQueues (s : State) : State :=
  { s with queues := s.queues.zipIdx.map (fun e =>
      if canStart s e.2 then (if e.1.since.isSome then e.1 else { e.1 with since := some s.clk.toNat })
      else { e.1 with since := none, starved := false }) }
/-- The head entry of a queue taken. -/
def takeCommand (s : State) (q : Nat) : State :=
  let t := s.modQueue q (fun r => { r with head := r.head + 1, since := none, starved := false })
  markQueues { t with lastQueue := q }
/-- QTAIL_WRITE: ignored where the ring would be overfilled (R347). -/
def execQtailWrite (q : Nat) (v : BitVec 64) (s : State) : Host.Outcome State Fault Refusal :=
  let t : BitVec 32 := v.setWidth 32
  let r := s.queue q
  .next (if !s.answers ∨ 64 ≤ q ∨ r.entries < (t - r.head).toNat then s else markQueues (s.modQueue q (fun r => { r with tail := t })))
/-- QUEUE_STARVATION_TIMEOUT: the head command could have started for 2^20 clocks (R349). -/
def execQueueStarvationTimeout (q : Nat) (s : State) : Host.Outcome State Fault Refusal :=
  let s := markQueues s
  due "QUEUE_STARVATION_TIMEOUT" (match (s.queue q).since with
    | some t => if canStart s q && !(s.queue q).starved && decide (t + 2 ^ 20 ≤ s.clk.toNat)
        then some (s.modQueue q (fun r => { r with starved := true })) else none
    | none => none)
/-- A command answered BADRECORD on ring 0, when that record need not wait (R348, R367). -/
def refuse (s : State) (q : Nat) : Option State :=
  if recordsFull s 0 then none else some (takeCommand (produce (s.leaveMerge (queueWaiter q)) 0 (mkRecord 0 0 6 0 q)) q)
/-- A command served when its queue's turn has come: the entry read, an illegal one answered BADRECORD on ring 0; a missing
translation is asked for (R348, R349). -/
def serve (name : String) (q : Nat) (mine : Nat → Bool) (s : State) (f : State → BitVec 512 → M State) :
    Host.Outcome State Fault Refusal :=
  let r := s.queue q
  due name (if nextQueue s != some q then none
    else match cpRead s q r.pasid r.headAddr 64 with
    | .error (.stall t _) => some t
    | .error _ => refuse s q
    | .ok (t, v) =>
      let e := BitVec.ofNat 512 v
      if !mine (eOpc e) then none
      else if !entryOk e then refuse t q
      else match f t e with
        | .ok u => some (u.leaveMerge (queueWaiter q))
        | .error (.stall u _) => some u
        | .error _ => refuse t q)
/-- COMMAND_NOP; an OPC of 3 to 15 is answered here (R348). -/
def execCommandNop (q : Nat) (s : State) : Host.Outcome State Fault Refusal :=
  serve "COMMAND_NOP" q (fun o => o == 0 || decide (3 ≤ o)) s (fun s _ => .ok (takeCommand s q))

/-! ### Admission -/

/-- The limits of R7 and the rules of R350 for a launch record. -/
def recordOk (r : BitVec 1024) : Bool :=
  let l : Launch := { noLaunch with raw := r }
  let zero := fun lo n => bitsAt r lo n == 0
  let upTo := fun v n => decide (1 ≤ v) && decide (v ≤ n)
  zero 0 64 && zero 117 11 && zero 240 16 && zero 277 43 && zero 377 7 && zero 441 7 && zero 608 32 && zero 644 60 && zero 761 7 &&
  zero 896 128 && l.entry % 8 == 0 && upTo l.vregs 384 && bitsAt r 105 2 != 3 && decide (l.tiles ≤ 8) &&
  upTo l.gx (2 ^ 32 - 1) && upTo l.gy 65535 && upTo l.gz 65535 && upTo l.bx 4096 && upTo l.bY 4096 && upTo l.bZ 256 &&
  decide (l.threads ≤ 65536) && decide (l.gx * l.gy * l.gz * l.lanePos ≤ 2 ^ 61) && decide (l.scratch ≤ 327680) &&
  l.codebase % 4096 == 0 && l.argaddr % 8 == 0
/-- The array ranges of a grant, legal or not (R351). -/
def grantRanges (g : BitVec 1024) : List (Nat × Nat) := (List.range 4).map (fun i => (bitsAt g (192 + 32 * i) 12, bitsAt g (208 + 32 * i) 13))
/-- The arrays that a grant names (R351). -/
def Launch.named (l : Launch) : List Nat := ((grantRanges l.grant).flatMap (fun r => (List.range r.2).map (r.1 + ·))).eraseDups
/-- The arrays that a launch is granted: of those its grant names, the ones of its partition's clusters (R351, R370). -/
def Launch.arrays (l : Launch) : List Nat := l.named.filter (fun a => a / 1024 == l.part)
/-- The rules of R351 that the grant record alone decides. -/
def grantOk (g : BitVec 1024) : Bool :=
  let zero := fun lo n => bitsAt g lo n == 0
  zero 352 672 && zero 185 7 && zero 160 8 && zero 57 39 && bitsAt g 0 57 % 4096 == 0 &&
  (List.range 4).all (fun i => zero (192 + 32 * i + 29) 3 && zero (192 + 32 * i + 12) 4) &&
  (grantRanges g).all (fun r => decide (r.2 ≤ 4096) && (r.2 == 0 || decide (r.1 + r.2 ≤ 4096))) &&
  decide (bitsAt g 176 9 ≤ 256) && decide (bitsAt g 168 8 + bitsAt g 176 9 ≤ 256) && decide (bitsAt g 96 32 + bitsAt g 128 32 ≤ 2 ^ 21)
/-- Launches that are admitted and have not retired: one that waits for its window is not yet admitted (R352). -/
def State.live (s : State) : List Launch := s.launches.filter (fun l => l.stat == .running || l.stat == .ending)
/-- Whether two ranges given by first and length share an element. -/
def rangesMeet (a n b m : Nat) : Bool := decide (a < b + m) && decide (b < a + n) && decide (0 < n) && decide (0 < m)
/-- Whether no admitted launch holds a row of a launch's table range (R351). -/
def rowsFree (s : State) (l : Launch) : Bool := s.live.all (fun m => !rangesMeet m.tbase m.tlen l.tbase l.tlen)
/-- Whether no array of a launch belongs to another PASID (R351). -/
def arraysFree (s : State) (l : Launch) : Bool := l.arrays.all (fun a => match mapGet s.arrays a with | some r => r.pasid == l.pasid | none => true)
/-- The rules of R351 that other launches and tenants decide. -/
def grantFree (s : State) (l : Launch) : Bool := rowsFree s l && arraysFree s l
/-- The arrays of a launch that is admitted become its PASID's (R351, R379). -/
def takeArrays (s : State) (l : Launch) : State :=
  { s with arrays := l.arrays.foldl (fun m a => if (mapGet m a).isSome then m
      else mapPut m a { pasid := l.pasid, st := .empty, va := 0, w := [], scale := [], m := [] }) s.arrays }
/-- Step 2 of R352: the variant matches, and no array that the grant names is unusable or fenced (R428). -/
def variantOk (s : State) (l : Launch) : Bool :=
  let as := l.named
  (l.variant == s.dev.defsig || (l.variant == 0 && as.isEmpty)) &&
  as.all (fun a => !s.dev.badxa.getLsbD a && !s.dev.fenced.contains (a / 64))
/-- Logical packs of a block on its `i`th core (R11). -/
def Launch.share (l : Launch) (i : Nat) : Nat := min l.perCore (l.packsPer - i * l.perCore)
/-- Cores a block takes (R11). -/
def Launch.coresPer (l : Launch) : Nat := if l.threads ≤ 4096 then 1 else (l.packsPer + l.perCore - 1) / max 1 l.perCore
/-- Accumulator tiles that `n` packs of a launch take (R155). -/
def Launch.tilesFor (l : Launch) (n : Nat) : Nat := l.tiles * (n / (l.teamW / 16))
/-- Scratchpad bytes that `n` packs of a block take on a core (R71). -/
def Launch.foot (l : Launch) (n : Nat) : Nat := l.sRound + n * (512 + if l.regions then 2048 else 0)
/-- Full shares that the free tiles of an engine allow on up to `cores` cores. -/
def sharesIn (free full cores : Nat) : Nat := if full = 0 then cores else min cores (free / full)
/-- The clusters of a partition on which blocks may be placed (R430). -/
def State.clusters (s : State) (part : Nat) : List Nat := ((List.range 16).map (16 * part + ·)).filter (fun c => !s.dev.fenced.contains c)

/-! ### Cores for blocks (R353, R354) -/

/-- The resident blocks with the place of a core among theirs. -/
def residents (s : State) (core : Nat) : List (Block × Nat) :=
  (s.blocks.filter (fun b => !b.retired && b.cores.contains core)).map (fun b => (b, b.cores.findIdx (· == core)))
/-- Logical packs that a resident block has on its `i`th core. -/
def Block.share (b : Block) (i : Nat) : Nat := min b.perCore (b.npacks - i * b.perCore)
/-- Packs resident in a quarter of a core (R6). -/
def quarterLoad (s : State) (core q : Nat) : Nat :=
  ((residents s core).map (fun r => ((r.1.quart.drop (r.2 * r.1.perCore)).take (r.1.share r.2)).count q)).sum
/-- The least loaded of the four quarters. -/
def leastQuarter (load : List Nat) : Nat := [1, 2, 3].foldl (fun b q => if nth 0 load q < nth 0 load b then q else b) 0
/-- Quarters for `n` teams of `t` packs, 64 packs to a quarter and a team whole in one; `none` where they do not fit (R6, R23; log 95). -/
def fillQuarters (t : Nat) : Nat → List Nat → Option (List Nat)
  | 0, _ => some []
  | n + 1, load =>
    let q := leastQuarter load
    if 64 < nth 0 load q + t then none
    else (fillQuarters t n (modNth load q (· + t))).map (fun r => List.replicate t q ++ r)
/-- Quarters for `n` packs of a launch on a core. -/
def quartersFor (s : State) (l : Launch) (core n : Nat) : Option (List Nat) :=
  fillQuarters (l.teamW / 16) (n / (l.teamW / 16)) ((List.range 4).map (quarterLoad s core))
/-- The scratchpad bytes that a core's resident blocks take (R71, R72). -/
def scratchUsed (s : State) (core : Nat) : Nat := ((residents s core).map (fun r => (s.launch r.1.launch).foot (r.1.share r.2))).sum
/-- Whether a core takes `n` packs of a block of a launch: packs, registers, scratchpad. The split of a core that held a block before
(in `base`) does not change (R6, R69, R71, R72). -/
def coreTakes (base s : State) (l : Launch) (core n : Nat) : Bool :=
  let regs := ((residents s core).map (fun r => r.1.share r.2 * (s.launch r.1.launch).allocV)).sum
  (quartersFor s l core n).isSome && decide (regs + n * l.allocV ≤ 8192) &&
  decide (scratchUsed s core + l.foot n ≤ if (residents base core).isEmpty then 327680 else 32768 * base.split core)
/-- Accumulator tiles of a cluster's engine in use (R155). -/
def tilesUsed (s : State) (cluster : Nat) : Nat :=
  ((s.blocks.filter (fun b => !b.retired)).map (fun b =>
    (b.cores.zipIdx.map (fun c => if c.1 / 4 == cluster then (s.launch b.launch).tilesFor (b.share c.2) else 0)).sum)).sum
/-- Whether the next block of a launch can be placed on cores, in the order in which its packs go to them, as one of those placed
together from `base` on (R353, R354). -/
def placeOn (base s : State) (i : Nat) (cores : List Nat) : Bool :=
  let l := s.launch i
  let cl := (cores.map (· / 4)).eraseDups
  let ok := s.clusters l.part
  cores.length == l.coresPer && cores.eraseDups.length == cores.length && cl.all ok.contains && decide (cl.length ≤ 4) &&
  s.launches.zipIdx.all (fun m => m.2 == i || m.1.stat == .retired || !m.1.reserved.any cores.contains) &&
  cores.zipIdx.all (fun c => coreTakes base s l c.1 (l.share c.2)) &&
  cl.all (fun c => decide (tilesUsed s c + (cores.zipIdx.map (fun e => if e.1 / 4 == c then l.tilesFor (l.share e.2) else 0)).sum ≤ 128)) &&
  (!l.grantsAny || cl.all (fun c => c == Config.variantCluster l.variant l.nextBlock))
/-- The next block of a launch seated: resident on its cores, each logical pack in its quarter. -/
def seat (s : State) (i : Nat) (cores : List Nat) : State :=
  let l := s.launch i
  let quart := cores.zipIdx.flatMap (fun c => (quartersFor s l c.1 (l.share c.2)).getD [])
  let blk : Block :=
    { launch := i, b := l.nextBlock, cores := cores, perCore := max 1 l.perCore, npacks := l.packsPer, quart := quart,
      bars := List.replicate 16 {}, slots := List.replicate 32 none, tiles := List.replicate (l.tilesFor l.packsPer) {} }
  { s.modLaunch i (fun l => { l with nextBlock := l.nextBlock + 1 }) with blocks := s.blocks ++ [blk] }
/-- The cores of the clusters on which a launch's next block may lie, by cluster. -/
def coreChoices (s : State) (i : Nat) : List (List Nat) :=
  let l := s.launch i
  let ok := (s.clusters l.part).filter (fun c => !l.grantsAny || c == Config.variantCluster l.variant l.nextBlock)
  ok.map (fun c => (List.range 4).map (4 * c + ·))
/-- The three longest of a list of lists. -/
def longest3 (ls : List (List Nat)) : List (List Nat) :=
  ls.foldl (fun best e => ((best.filter (fun b => decide (e.length ≤ b.length))) ++ e :: best.filter (fun b => decide (b.length < e.length))).take 3) []
/-- Cores for one caravan, where there are any: the last share in some cluster, on a core that takes no full share if there is one, and
the full shares there and in the three other clusters that take most (R354). -/
def caravanCores (base s : State) (i : Nat) : Option (List Nat) :=
  let l := s.launch i
  let n := l.coresPer - 1
  let last := l.tilesFor (l.share n)
  let takes := fun (c k : Nat) => placeable c && coreTakes base s l c k
  let most := fun (cs : List Nat) (less : Nat) =>
    (cs.filter (takes · l.perCore)).take (sharesIn (128 - tilesUsed s (cs.headD 0 / 4) - less) (l.tilesFor l.perCore) 4)
  (coreChoices s i).findSome? (fun cs =>
    let ends := cs.filter (takes · (l.share n))
    match (ends.filter (fun c => !takes c l.perCore)) ++ ends with
    | [] => none
    | e :: _ =>
      let full := (most (cs.filter (· != e)) last ++
        (longest3 (((coreChoices s i).filter (· != cs)).map (most · 0))).flatten).take n
      if placeOn base s i (full ++ [e]) then some (full ++ [e]) else none)
where
  placeable (c : Nat) : Bool := s.launches.zipIdx.all (fun m => m.2 == i || m.1.stat == .retired || !m.1.reserved.contains c)
/-- The sublists of a list, longer ones first where they share a head. -/
def subsets : List Nat → List (List Nat)
  | [] => [[]]
  | a :: as => (subsets as).map (a :: ·) ++ subsets as
/-- A search through the sets of `n` cores of at most `k` clusters, until `f` finds one that will do. -/
def pickSets {α : Type} (f : List Nat → Option α) : List (List Nat) → Nat → Nat → List Nat → Option α
  | [], n, _, acc => if n = 0 then f acc else none
  | c :: cs, n, k, acc =>
    if n = 0 then f acc
    else if k = 0 then none
    else (subsets c).findSome? (fun sub =>
      if n < sub.length then none else pickSets f cs (n - sub.length) (if sub.isEmpty then k else k - 1) (acc ++ sub))
/-- Cores for `n` blocks of a launch that are placed together, block by block; `none` only where no assignment holds them all: the blocks
of at most 4,096 threads are alike, so that any that fits will do, and sets of caravans are searched (R352 to R354). -/
def allCores (base : State) (i : Nat) : Nat → State → Option (List Nat)
  | 0, _ => some []
  | n + 1, s =>
    let rest := fun (cs : List Nat) => (allCores base i n (seat s i cs)).map (cs ++ ·)
    if (s.launch i).coresPer = 1 then
      (match (coreChoices s i).flatten.find? (fun c => placeOn base s i [c]) with
      | some c => rest [c]
      | none => none)
    else if n = 0 then caravanCores base s i
    else
      (coreChoices s i).flatten.findSome? (fun e =>
        pickSets (fun full => if placeOn base s i (full ++ [e]) then rest (full ++ [e]) else none)
          (coreChoices s i) ((s.launch i).coresPer - 1) 4 [])
/-- The device with no launch resident but `l`, nothing of it placed. -/
def bare (s : State) (l : Launch) : State := { s with blocks := [], launches := [{ l with nextBlock := 0, reserved := [] }] }
/-- Step 3 of R352: a block can be placed on cores that hold no other; which cluster a variant assigns does not count here
(R11, R155, R354). -/
def blockFitsEmpty (s : State) (l : Launch) : Bool :=
  let e := bare s { l with grant := 0 }
  decide (1 ≤ l.perCore) && (if l.threads ≤ 4096 then decide (l.packsPer ≤ l.perCore) else decide (l.coresPer ≤ 16)) && (allCores e 0 1 e).isSome
/-- Step 4 of R352: all blocks at once on the empty partition; with arrays granted each in its variant's cluster (R364). -/
def detFits (s : State) (l : Launch) : Bool := !l.det || (let e := bare s l; (allCores e 0 l.blocks e).isSome)

/-! ### Refusal and admission -/

/-- Whether the weight-buffer window of a launch is free (R352 step 5). -/
def windowFree (s : State) (l : Launch) : Bool :=
  s.launches.all (fun m => m.part != l.part || !(m.stat == .running || m.stat == .ending) || !rangesMeet m.wboff m.wblen l.wboff l.wblen)
/-- The status with which R352 refuses a launch, 0 where it is admitted. -/
def admitStatus (s : State) (l : Launch) (recs : Bool) : Nat :=
  if !recs || !recordOk l.raw || !grantOk l.grant || !grantFree s l then 6
  else if !variantOk s l then 3
  else if !blockFitsEmpty s l then 8
  else if !detFits s l then 4
  else 0
/-- The arguments that ARGMASK places: register and address (R350). -/
def argAddrs (l : Launch) : List (Nat × Nat) := ((List.range 96).filter l.argmask.getLsbD).map (fun n => (n, l.argaddr + 8 * n))
/-- ARGS read: 96 doublewords, those not placed left 0. -/
def argValues (l : Launch) (rd : Nat → Nat) : List W64 :=
  (List.range 96).map (fun n => if l.argmask.getLsbD n then BitVec.ofNat 64 (rd (l.argaddr + 8 * n)) else 0)
/-- A launch in the making from its record (R350 to R352). -/
def newLaunch (s : State) (q : Nat) (node : Option (Nat × Nat)) (pasid addr : Nat) (raw grant : BitVec 1024) : Launch :=
  { stat := .running, queue := q, node := node, ring := bitsAt raw 640 4, part := Config.queuePart q % 4, pasid := pasid, addr := addr,
    raw := raw, grant := grant, adm := s.clk.toNat, waitSince := s.clk.toNat, tbinds := List.replicate 16 none }
/-- The grant and the arguments of a record read, and the launch admitted or refused with its completion record; gives the
status (R350 to R352). -/
def admitLaunch (s : State) (q : Nat) (node : Option (Nat × Nat)) (pasid addr : Nat) (raw : BitVec 1024) : M (State × Nat) := do
  let l0 := newLaunch s q node pasid addr raw 0
  let good := recordOk raw && addr % 128 == 0 && l0.grantAddr % 128 == 0
  let grd ← match cpRead s q pasid l0.grantAddr (if good && l0.grantAddr != 0 then 128 else 0) with
    | .error (.exc _) => .ok (s, none)
    | .error h => .error h
    | .ok r => .ok (r.1, some (BitVec.ofNat 1024 r.2))
  let s := grd.1
  let l := { l0 with grant := grd.2.getD 0 }
  let args ← match probe s .l2 l.part pasid (queueWaiter q) (if good then (argAddrs l).map (fun a => (a.2, false)) else []) with
    | .error (.exc _) => .ok none
    | .error h => .error h
    | .ok m => .ok (some m)
  let foot := (argAddrs l).filterMap (fun a => (args.getD []).at a.2 |>.map (fun ph => (ph, 8)))
  waitIf (anyClosed s foot || behindRelay s foot) s .queue
  let s := closeWindows s (linesOf foot)
  let st := admitStatus s l (good && grd.2.isSome && args.isSome)
  if st ≠ 0 then do
    waitIf (recordsFull s l.ring) s .queue
    return (produce s l.ring (mkRecord l.tag 0 st 0 q), st)
  else
    let l := { l with args := argValues l (fun va => vNat s (args.getD []) va 8), stat := if windowFree s l then .running else .window }
    let s := if windowFree s l then takeArrays s l else s
    return ({ s with launches := s.launches ++ [l] }, 0)
/-- COMMAND_LAUNCH (R348, R350 to R352). -/
def execCommandLaunch (q : Nat) (s : State) : Host.Outcome State Fault Refusal :=
  serve "COMMAND_LAUNCH" q (· == 1) s (fun s e => do
    let pasid := (s.queue q).pasid
    let (s, raw) ← cpRead s q pasid (ePtr e) 128
    let (s, st) ← admitLaunch s q none pasid (ePtr e) (BitVec.ofNat 1024 raw)
    let s := if st = 0 then s.modQueue q (fun r => { r with running := r.running + 1 }) else s
    return takeCommand s q)
/-- WINDOW_FREE_ADMIT: the window of a waiting launch is free in every engine of its partition, and no launch admitted in the meantime holds
its table rows or has made an array another PASID's (R351, R352, R387; log 70). -/
def execWindowFreeAdmit (launch : Nat) (s : State) : Host.Outcome State Fault Refusal :=
  due "WINDOW_FREE_ADMIT" (
    let l := s.launch launch
    if l.stat == .window && windowFree s l && grantFree s l && !s.halting l.part
    then some ((takeArrays s l).modLaunch launch (fun l => { l with stat := .running, adm := s.clk.toNat, waitSince := s.clk.toNat })) else none)

/-! ### Placement -/

/-- The present lanes of logical pack `k` of a block (R8). -/
def Launch.present (l : Launch) (k : Nat) : Lanes := maskWhere (fun i => decide (16 * k + i < l.threads))
/-- Logical pack `k` as placed: registers that the spec leaves undefined are free (R13, R70, R381; log 4). A pack of a team without any
present lane is retired at once and has no path (DEDUCED, log 111). -/
def newPack (l : Launch) (launch block k core n clk : Nat) : Pack :=
  let present := l.present k
  { launch := launch, block := block, pk := k, core := core, retired := present == 0, present := present,
    lead := { path := if present = 0 then none else some ⟨l.entry, present, none⟩ },
    v := (List.range (16 * l.allocV)).map (fun i => Config.freeV (n + i)), tags := List.replicate l.allocV false,
    s := (List.range 96).map (fun i => if l.argmask.getLsbD i then nth 0 l.args i else Config.freeS (n + i)),
    p := List.replicate 7 0, q := List.replicate 128 0, gs := List.replicate 8 none, fholds := List.replicate 12 0,
    k := List.replicate 6 0, refs := List.replicate 16 0, pscr := (List.range 4).map (fun i => Config.freeS (n + 96 + i)),
    seed := l.seed, trapv := Config.trapv l.codebase, last := clk }
/-- The next block of a launch placed on its cores, each core's first block of the launch beginning with an acquire (R122,
R353). -/
def placeNext (s : State) (i : Nat) (cores : List Nat) : State :=
  let l := s.launch i
  let b := s.blocks.length
  let fresh := cores.filter (fun c => !s.blocks.any (fun k => k.launch == i && k.cores.contains c))
  let t := seat (fresh.foldl acquireCore s) i cores
  let each := 16 * l.allocV + 100
  let packs := (List.range l.packsPer).map (fun k => { newPack l i b k (nth 0 cores (k / max 1 l.perCore)) (s.fresh + each * k) s.clk.toNat with
    quarter := nth 0 (t.block b).quart k })
  let t := t.modLaunch i (fun l => { l with waitSince := s.clk.toNat, reserved := [] })
  { t with packs := s.packs ++ packs, fresh := s.fresh + each * l.packsPer }
/-- The scratchpad sizes of the cores that held no block in `base`: the smallest multiple of 32 KiB that holds what is resident now; an
L1 that shrinks loses the lines over its ways (R72). -/
def sizeScratch (base s : State) (cores : List Nat) : State :=
  (cores.eraseDups.filter (fun c => (residents base c).isEmpty)).foldl (fun s c => setSplit s c ((scratchUsed s c + 32767) / 32768)) s
/-- Whether a launch has a block to place, and the partition takes it (R353, R387, R434). -/
def wantsPlace (s : State) (i : Nat) : Bool :=
  let l := s.launch i
  l.stat == .running && decide (l.nextBlock < l.blocks) && !(l.preempt && s.halting l.part) && !s.dev.tripped
/-- Several blocks placed together on consecutive lists of cores; `none` where one does not fit. -/
def placeEach (base : State) (i : Nat) : Nat → State → List Nat → Option State
  | 0, s, cores => if cores.isEmpty then some s else none
  | n + 1, s, cores =>
    let k := (s.launch i).coresPer
    if placeOn base s i (cores.take k) then placeEach base i n (placeNext s i (cores.take k)) (cores.drop k) else none
/-- What is placed together on its cores, their scratchpads sized for it (R72, R353). -/
def placeRun (s : State) (i n : Nat) (cores : List Nat) : Option State := (placeEach s i n s cores).map (fun t => sizeScratch s t cores)
/-- Blocks that are placed together: all of a `.det` launch, else one (R353). -/
def together' (s : State) (i : Nat) : Nat := let l := s.launch i; if l.det then l.blocks - l.nextBlock else 1
/-- Cores for what a launch places together next. -/
def nextCores (s : State) (i : Nat) : Option (List Nat) := allCores s i (together' s i) s
/-- Whether a launch that goes before another, by PRIO, then by order of admission, has a block that fits now (R353). -/
def goesFirst (s : State) (i : Nat) : Bool :=
  let l := s.launch i
  s.launches.zipIdx.any (fun m => m.2 != i && m.1.part == l.part && wantsPlace s m.2 &&
    (decide (l.prio < m.1.prio) || (l.prio == m.1.prio && (decide (m.1.adm < l.adm) || (m.1.adm == l.adm && decide (m.2 < i))))) &&
    (nextCores s m.2).isSome)
/-- BLOCK_PLACE (R353). -/
def execBlockPlace (launch core : Nat) (s : State) : Host.Outcome State Fault Refusal :=
  due "BLOCK_PLACE" (
    let l := s.launch launch
    if wantsPlace s launch && !l.det && decide (l.threads ≤ 4096) && !goesFirst s launch then placeRun s launch 1 [core] else none)
/-- CARAVAN_PLACE: a caravan on all its cores at once, or every block of a `.det` launch together (R353, R354). -/
def execCaravanPlace (launch : Nat) (cores : List Nat) (s : State) : Host.Outcome State Fault Refusal :=
  due "CARAVAN_PLACE" (
    let l := s.launch launch
    if wantsPlace s launch && (l.det || decide (4096 < l.threads)) && !goesFirst s launch
    then placeRun s launch (together' s launch) cores else none)
/-- Cores reserved for what has waited 65,536 clocks: those it could take if they were empty (R353, R354). -/
def reserve (name : String) (launch : Nat) (cores : List Nat) (ok : Bool) (s : State) : Host.Outcome State Fault Refusal :=
  due name (
    let l := s.launch launch
    let empty : State := { s with blocks := [], launches := s.launches }
    if ok && wantsPlace s launch && l.reserved.isEmpty && decide (l.waitSince + 65536 ≤ s.clk.toNat) &&
      (nextCores s launch).isNone && (placeRun empty launch (together' s launch) cores).isSome
    then some (s.modLaunch launch (fun l => { l with reserved := cores.eraseDups })) else none)
/-- BLOCK_WAIT_TIMEOUT (R353). -/
def execBlockWaitTimeout (launch : Nat) (cores : List Nat) (s : State) : Host.Outcome State Fault Refusal :=
  reserve "BLOCK_WAIT_TIMEOUT" launch cores (!(s.launch launch).det && decide ((s.launch launch).threads ≤ 4096)) s
/-- CARAVAN_WAIT_TIMEOUT (R354). -/
def execCaravanWaitTimeout (launch : Nat) (cores : List Nat) (s : State) : Host.Outcome State Fault Refusal :=
  reserve "CARAVAN_WAIT_TIMEOUT" launch cores ((s.launch launch).det || decide (4096 < (s.launch launch).threads)) s

end Sys2Proof.Machine
end

