-- ==== Sys2Proof/Machine/Graph.lean ====
section
/-!
DEFINITION. Event rings (R367 to R369) and task graphs (R356 to R360).
-/
namespace Sys2Proof.Machine
open Sys2Proof

/-! ### Event rings -/

/-- Ring `r`. -/
def State.ring (s : State) (r : Nat) : Ring := nth {} s.rings r
/-- `s` with ring `r` changed. -/
def State.modRing (s : State) (r : Nat) (f : Ring → Ring) : State := { s with rings := modNth s.rings r f }
/-- Whether a ring's records are written (R367). -/
def Ring.en (g : Ring) : Bool := g.ctl.getLsbD 4
/-- Records that a ring holds (R367). -/
def Ring.entries (g : Ring) : Nat := ringSize (bitsAt g.ctl 0 4)
/-- Whether a ring has room: the device never passes RHEAD − 1 (R367). -/
def Ring.room (g : Ring) : Bool := decide ((g.tail - g.head).toNat + 1 < g.entries)
/-- The address of the next record. -/
def Ring.tailAddr (g : Ring) : Nat := bitsAt g.base 0 57 + 32 * (g.tail.toNat % g.entries)
/-- RHEAD_WRITE (R367). -/
def execRheadWrite (r : Nat) (v : BitVec 64) (s : State) : Host.Outcome State Fault Refusal :=
  .next (if s.answers then s.modRing r (fun g => { g with head := v.setWidth 32 }) else s)
/-- An MSI-X message; there are 2,048 vectors, and a number beyond them names none (R422; log 109). -/
def State.sendVec (s : State) (v : Nat) : State := if v < 2048 then { s with sent := s.sent ++ [.msix v] } else s
/-- A ring's interrupt, with both counts restarted (R369). -/
def ringInterrupt (s : State) (r : Nat) : State :=
  (s.modRing r (fun g => { g with count := 0, first := none })).sendVec (bitsAt (s.ring r).ctl 16 16)
/-- A record counted, and the interrupt raised where COUNT is reached (R369). -/
def countRecord (s : State) (r : Nat) : State :=
  let t := s.modRing r (fun g => { g with count := g.count + 1, first := some (g.first.getD s.clk.toNat) })
  if max 1 (bitsAt (t.ring r).coal 0 8) ≤ (t.ring r).count then ringInterrupt t r else t
/-- The partition of what belongs to none: an event ring's translations count in no partition's XLSTAT (R401; log 107). -/
def noPart : Nat := 4
/-- EVENT_RECORD_WRITE: the oldest record of a ring written at RTAIL where there is room (R367, R368). -/
def execEventRecordWrite (r : Nat) (s : State) : Host.Outcome State Fault Refusal :=
  due "EVENT_RECORD_WRITE" (
    let g := s.ring r
    match s.records.find? (fun e => e.ring == r) with
    | none => none
    | some e =>
      if !g.en || !g.room then none
      else match probe s .l2 noPart (bitsAt g.ctl 32 20) (ringWaiter r) (pagesOf g.tailAddr 32 true) with
        | .error (.stall t _) => some t
        | .error _ => some (s.leaveMerge (ringWaiter r))
        | .ok m =>
          if anyClosed s (physRanges m [(g.tailAddr, 32)]) then none
          else
            let s := s.leaveMerge (ringWaiter r)
            let t := engineWrite s (m.bytes g.tailAddr (leBytes (putBits e.bits 0 64 s.clk.toNat).toNat 32))
            let t := { t with records := t.records.erase e }
            some (settle (countRecord (t.modRing r (fun g => { g with tail := g.tail + 1 })) r)))
/-- RING_COALESCE_TIMEOUT (R369). -/
def execRingCoalesceTimeout (r : Nat) (s : State) : Host.Outcome State Fault Refusal :=
  due "RING_COALESCE_TIMEOUT" (
    let g := s.ring r
    match g.first with
    | none => none
    | some t =>
      let time := bitsAt g.coal 16 16
      if time != 0 && decide (t + 1500 * time ≤ s.clk.toNat) then some (ringInterrupt s r) else none)

/-! ### Graph objects -/

/-- Fields of a graph header (R356). -/
def hNnode (h : BitVec 512) : Nat := bitsAt h 0 16
def hRing (h : BitVec 512) : Nat := bitsAt h 16 4
def hTag (h : BitVec 512) : W64 := h.extractLsb' 64 64
/-- Whether a header obeys R356. -/
def headerFits (h : BitVec 512) : Bool :=
  decide (1 ≤ hNnode h) && decide (hNnode h ≤ 4096) && bitsAt h 20 44 == 0 && bitsAt h 128 384 == 0
/-- Fields of a node record (R356). -/
def nKind (r : BitVec 512) : Nat := bitsAt r 0 4
def nNpred (r : BitVec 512) : Nat := bitsAt r 8 12
def nNsucc (r : BitVec 512) : Nat := bitsAt r 20 4
def nSucc (r : BitVec 512) (i : Nat) : Nat := bitsAt r (64 + 16 * i) 16
def nArg (r : BitVec 512) : Nat := bitsAt r 192 64
def nVal (r : BitVec 512) : Nat := bitsAt r 256 64
def nDst (r : BitVec 512) : Nat := bitsAt r 320 64
/-- Whether a node record obeys R356. -/
def nodeOk (n : Nat) (r : BitVec 512) : Bool :=
  bitsAt r 384 128 == 0 && bitsAt r 24 40 == 0 && bitsAt r 4 4 == 0 && decide (nKind r ≤ 5) && decide (nNsucc r ≤ 8) &&
  (nKind r != 4 || decide (1 ≤ nNsucc r)) && (nKind r != 2 || nVal r % 4 == 0) &&
  (List.range (nNsucc r)).all (fun i => decide (nSucc r i < n) || nSucc r i == 0xFFFF)
/-- Whether a graph obeys R356. -/
def graphOk (h : BitVec 512) (ns : List (BitVec 512)) : Bool :=
  headerFits h && ns.all (nodeOk (hNnode h)) && ns.any (fun r => nNpred r == 0)
/-- Bytes of the record that a node's ARG names (R360). -/
def argBytes (r : BitVec 512) : Nat := if nKind r = 0 then 128 else if nKind r = 1 then 64 else 0
/-- One patch applied to a replay's copied nodes; `none` where it is not legal (R360). -/
def patch (e : BitVec 128) (ns : List Node) : Option (List Node) :=
  let i := bitsAt e 0 16
  let o := bitsAt e 16 16
  match ns[i]? with
  | none => none
  | some n =>
    if bitsAt e 32 32 ≠ 0 ∨ o % 8 ≠ 0 ∨ 64 + argBytes n.raw ≤ o then none
    else if o < 64 then some (ns.set i { n with raw := putBits n.raw (8 * o) 64 (bitsAt e 64 64) })
    else some (ns.set i { n with arg := putBits n.arg (8 * (o - 64)) 64 (bitsAt e 64 64) })
/-- Patches applied in order (R360). -/
def patches : List (BitVec 128) → List Node → Option (List Node)
  | [], ns => some ns
  | e :: es, ns => (patch e ns).bind (patches es)
/-- Bytes that the command processor reads, `none` where an address is unrecoverable. -/
def cpTry (s : State) (q pasid va n : Nat) : M (State × Option Nat) :=
  match cpRead s q pasid va n with
  | .ok (t, v) => .ok (t, some v)
  | .error (.exc _) => .ok (s, none)
  | .error h => .error h
/-- Several records of one size read in turn. -/
def cpList (s : State) (q pasid n : Nat) : List Nat → M (State × Option (List Nat))
  | [] => .ok (s, some [])
  | a :: as => do
    let (s, v) ← cpTry s q pasid a n
    let (s, vs) ← cpList s q pasid n as
    return (s, match v, vs with | some x, some xs => some (x :: xs) | _, _ => none)
/-- The nodes of a graph with the records that their ARG names (R360). -/
def cpNodes (s : State) (q pasid : Nat) : List (BitVec 512) → M (State × Option (List Node))
  | [] => .ok (s, some [])
  | r :: rs => do
    let (s, v) ← cpTry s q pasid (nArg r) (argBytes r)
    let (s, ns) ← cpNodes s q pasid rs
    return (s, match v, ns with
      | some x, some ns => some ({ raw := r, arg := BitVec.ofNat 1024 x, count := 0, stat := .idle, status := 0, taken := none } :: ns)
      | _, _ => none)
/-- Replay `r`. -/
def State.replay (s : State) (r : Nat) : Replay :=
  nth { queue := 255, pasid := 0, object := 0, header := 0, nodes := [], started := false, finished := true, status := 0 } s.replays r
/-- `s` with replay `r` changed. -/
def State.modReplay (s : State) (r : Nat) (f : Replay → Replay) : State := { s with replays := modNth s.replays r f }
/-- Whether a replay of an object is pending (R360). -/
def Replay.pends (q : Replay) (pasid object : Nat) : Bool := !q.finished && q.pasid == pasid && q.object == object
/-- A replay started: its nodes without predecessors are ready (R359). -/
def Replay.start (q : Replay) : Replay :=
  { q with started := true, nodes := q.nodes.map (fun n => if nNpred n.raw = 0 then { n with stat := .ready } else n) }
/-- A replay refused with its completion record, when that need not wait; the queue goes on (R356, R360, R367). -/
def refuseReplay (s : State) (q : Nat) (h : BitVec 512) (st : Nat) : M State := do
  waitIf (recordsFull s (hRing h)) s .queue
  return takeCommand (produce s (hRing h) (mkRecord (hTag h) 0 st 1 q)) q
/-- COMMAND_REPLAY: the object and its records copied and patched into an instance, which starts once no earlier replay of the
object is pending (R356, R359, R360). -/
def execCommandReplay (q : Nat) (s : State) : Host.Outcome State Fault Refusal :=
  serve "COMMAND_REPLAY" q (· == 2) s (fun s e => do
    let pasid := (s.queue q).pasid
    let (s, hv) ← cpRead s q pasid (ePtr e) 64
    let h := BitVec.ofNat 512 hv
    let pend := s.replays.filter (fun r => r.pends pasid (ePtr e))
    if 4 ≤ pend.length then refuseReplay s q h 2
    else if ePtr e % 64 ≠ 0 ∨ !headerFits h then refuseReplay s q h 6
    else do
      let (s, rs) ← cpList s q pasid 64 ((List.range (hNnode h)).map (fun i => ePtr e + 64 * (i + 1)))
      let raws := (rs.getD []).map (BitVec.ofNat 512)
      if !graphOk h raws then refuseReplay s q h 6
      else do
        let (s, ns) ← cpNodes s q pasid raws
        let (s, es) ← cpList s q pasid 16 ((List.range (eNpatch e)).map (fun i => ePatch e + 16 * i))
        let out := match ns, es with
          | some ns, some es => patches (es.map (BitVec.ofNat 128)) ns
          | _, _ => none
        match out with
        | none => refuseReplay s q h 6
        | some ns =>
          if !graphOk h (ns.map (·.raw)) then refuseReplay s q h 6
          else
            let r : Replay := { queue := q, pasid := pasid, object := ePtr e, header := h, nodes := ns, started := false,
                                finished := false, status := 0 }
            let r := if pend.isEmpty then r.start else r
            let s := s.modQueue q (fun g => { g with running := g.running + 1 })
            return takeCommand { s with replays := s.replays ++ [r] } q)

/-! ### Nodes -/

/-- A node that is not there. -/
def noNode : Node := { raw := 0, arg := 0, count := 0, stat := .idle, status := 0, taken := none }
/-- Node `n` of replay `r`. -/
def State.node (s : State) (r n : Nat) : Node := nth noNode (s.replay r).nodes n
/-- `s` with a node changed. -/
def State.modNode (s : State) (r n : Nat) (f : Node → Node) : State := s.modReplay r (fun q => { q with nodes := modNth q.nodes n f })
/-- Whether a node of a kind is ready in a replay that runs. -/
def nodeReady (s : State) (r n kind : Nat) : Bool :=
  let q := s.replay r
  q.started && !q.finished && (s.node r n).stat == .ready && nKind (s.node r n).raw == kind
/-- A ready node of a kind acts; what it waits for leaves it ready, and an address that cannot be translated completes it with
BADRECORD. -/
def nodeActs (name : String) (kind r n : Nat) (s : State) (f : State → Replay → BitVec 512 → M State) : Host.Outcome State Fault Refusal :=
  due name (if !nodeReady s r n kind then none
    else match f s (s.replay r) (s.node r n).raw with
      | .ok t => some (t.leaveMerge (nodeWaiter r n))
      | .error (.stall t .xlate) => some t
      | .error (.stall _ _) => none
      | .error (.handled t) => some t
      | .error (.exc _) => some (nodeStatus (s.leaveMerge (nodeWaiter r n)) (some (r, n)) 6))
/-- NODE_KERNEL: the copied launch record admitted on the graph's queue (R357). -/
def execNodeKernel (replay node : Nat) (s : State) : Host.Outcome State Fault Refusal :=
  nodeActs "NODE_KERNEL" 0 replay node s (fun s q raw => do
    waitIf (s.halting (Config.queuePart q.queue % 4)) s .queue
    let (t, st) ← admitLaunch s q.queue (some (replay, node)) q.pasid (nArg raw) (s.node replay node).arg
    return if st = 0 then t.modNode replay node (fun m => { m with stat := .running }) else nodeStatus t (some (replay, node)) st)
/-- NODE_CELLAR: the copied job record started as NLAUNCH does, with no pack, counter or barrier (R357, R414). -/
def execNodeCellar (replay node : Nat) (s : State) : Host.Outcome State Fault Refusal :=
  nodeActs "NODE_CELLAR" 1 replay node s (fun s q raw => do
    let r : BitVec 512 := (s.node replay node).arg.setWidth 512
    let tc := jobTlb s q.pasid r
    if nArg raw % 64 ≠ 0 ∨ !jobOk r then return nodeStatus s (some (replay, node)) 6
    else do
      awaitSource s tc (Config.queuePart q.queue % 4) q.pasid (nodeWaiter replay node) r
      failIf (inTableArea s tc q.pasid r) cOPFORMAT 0
      let mp ← probe s tc (Config.queuePart q.queue % 4) q.pasid (nodeWaiter replay node) (jobPages r)
      if (outside mp r).isSome then return nodeStatus s (some (replay, node)) 6
      else do
        let regs ← regionStacks s tc (Config.queuePart q.queue % 4) q.pasid (nodeWaiter replay node) mp
          (if jKind r = 3 then regionsOf q.pasid [(jArg r 0, jN r * fmtBytes (jFmt r))] else [])
        waitIf (!seqRoom s regs) s .engine
        let j := newJob r mp (hRing q.header) none none s.nextOp 0 []
        waitIf (decide (64 ≤ queued s j.stack)) s .queue
        let (t, parts) := takeNumbers s regs
        let j := { j with parts := parts }
        let o : Op := { id := t.nextOp, grp := t.nextOp, pack := none, launch := 2 ^ 40, node := some (replay, node), k := none, tr := mp,
                        body := .job j }
        let t := { t with ops := t.ops ++ [{ o with body := .job (j.standing t o) }], nextOp := t.nextOp + 1 }
        return (t.fillTc tc q.pasid (jobPages r)).modNode replay node (fun m => { m with stat := .running }))
/-- A range cut at page boundaries. -/
def pageRanges (va n : Nat) : List (Nat × Nat) := (pagesOf va n false).map (fun a => (a.1, min (va + n) (a.1 / 4096 * 4096 + 4096) - a.1))
/-- Whether an access leads to a peer window that no port serves (R426). -/
def State.cutVa (s : State) (tc : Tc) (pasid va : Nat) (write : Bool) : Bool :=
  match s.tlbFind tc pasid va write with
  | some t =>
    let a := t.tbase + (va - t.base)
    !(decide (s.dev.bar2 ≤ a) && decide (a < s.dev.bar2 + 2 ^ 40)) && (match s.peerIx a with | some i => (s.upPorts (s.window i)).isEmpty | none => false)
  | none => false
/-- NODE_COPY: bytes copied through the L2, after requests sent back to their pages; what it writes registers with no owner. Where it meets a
peer window that no port serves, what it reads is free, what it writes is lost, and the replay's record has CAUSE 0x19 (R133, R357, R426; log
4, 123). -/
def execNodeCopy (replay node : Nat) (s : State) : Host.Outcome State Fault Refusal :=
  nodeActs "NODE_COPY" 2 replay node s (fun s q raw => do
    let n := nVal raw
    let cut := fun (va : Nat) (write : Bool) => s.cutVa .l2 q.pasid va write
    let pages := pagesOf (nArg raw) n false ++ pagesOf (nDst raw) n true
    let m ← probe s .l2 (Config.queuePart q.queue % 4) q.pasid (nodeWaiter replay node) (pages.filter (fun a => !cut a.1 a.2))
    let src := physRanges m ((pageRanges (nArg raw) n).filter (fun a => !cut a.1 false))
    let foot := src ++ physRanges m ((pageRanges (nDst raw) n).filter (fun a => !cut a.1 true))
    waitIf (anyClosed s foot || behindRelay s foot) s .queue
    let s := closeWindows s (linesOf src)
    let bytes := (List.range n).filterMap (fun i => if cut (nDst raw + i) true then none else
      some (m.get (nDst raw + i), if cut (nArg raw + i) false then (Config.freeS (s.fresh + i)).setWidth 8 else memByte s (m.get (nArg raw + i))))
    let t := registerBytes s none false bytes
    let t := if !pages.any (fun a => cut a.1 a.2) then t
      else { t with fresh := t.fresh + n }.modReplay replay (fun q => { q with fault := if q.fault = 0 then summaryOf cXLATE false false 0 else q.fault })
    return nodeStatus t (some (replay, node)) 0)
/-- Eight bytes that a node reads at the L2. -/
def nodeWord (s : State) (q : Replay) (who va : Nat) : M (State × Nat) := do
  let m ← probe s .l2 (Config.queuePart q.queue % 4) q.pasid who (pagesOf va 8 false)
  let foot := physRanges m [(va, 8)]
  waitIf (anyClosed s foot || behindRelay s foot) s .queue
  return (closeWindows s (linesOf foot), vNat s m va 8)
/-- NODE_HOSTWAIT: the host word has reached the value (R357). -/
def execNodeHostwait (replay node : Nat) (s : State) : Host.Outcome State Fault Refusal :=
  nodeActs "NODE_HOSTWAIT" 3 replay node s (fun s q raw => do
    let (t, w) ← nodeWord s q (nodeWaiter replay node) (nArg raw)
    waitIf (decide (w < nVal raw)) s .queue
    return nodeStatus t (some (replay, node)) 0)
/-- NODE_COND: the result word chooses a branch, or none with BADCOND (R358). -/
def execNodeCond (replay node : Nat) (s : State) : Host.Outcome State Fault Refusal :=
  nodeActs "NODE_COND" 4 replay node s (fun s q raw => do
    let (t, w) ← nodeWord s q (nodeWaiter replay node) (nArg raw)
    return if w < nNsucc raw then nodeStatus (t.modNode replay node (fun m => { m with taken := some w })) (some (replay, node)) 0
      else nodeStatus t (some (replay, node)) 5)
/-- The record of an EVENT node (R357). -/
def nodeRecord (q : Replay) (raw : BitVec 512) : Nat × BitVec 256 :=
  (hRing q.header, mkRecord (BitVec.ofNat 64 (nVal raw)) 0 0 2 q.queue)
/-- NODE_EVENT: its record produced; it completes when that record is written (R357). -/
def execNodeEvent (replay node : Nat) (s : State) : Host.Outcome State Fault Refusal :=
  nodeActs "NODE_EVENT" 5 replay node s (fun s q raw => do
    let e := nodeRecord q raw
    waitIf (recordsFull s e.1) s .queue
    return (produce s e.1 e.2 (some (replay, node))).modNode replay node (fun m => { m with stat := .running }))
/-- One edge received (R359). -/
def edge (ns : List Node) (i : Nat) : List Node :=
  modNth ns i (fun m =>
    let c := m.count + 1
    { m with count := c, stat := if c = nNpred m.raw ∧ m.stat = .idle then .ready else m.stat })
/-- The edges that a completing node sends (R359). -/
def edgesOf (m : Node) : List Nat :=
  let all := if nKind m.raw = 4 then (match m.taken with | some w => [nSucc m.raw w] | none => [])
    else (List.range (nNsucc m.raw)).map (nSucc m.raw)
  all.filter (· != 0xFFFF)
/-- A node completed in its replay: its edges, and the first status that is not OK (R359). -/
def Replay.complete (q : Replay) (n : Nat) : Replay :=
  let m := nth noNode q.nodes n
  let ns := (edgesOf m).foldl edge (modNth q.nodes n (fun m => { m with stat := .done }))
  { q with nodes := ns, status := if q.status = 0 then m.status else q.status }
/-- Whether a replay has no node ready or running (R359). -/
def Replay.idle (q : Replay) : Bool := q.nodes.all (fun m => m.stat == .idle || m.stat == .done)
/-- A replay ends: its record, its command complete, the next replay of its object started (R359, R360). -/
def endReplay (s : State) (r : Nat) : State :=
  let q := s.replay r
  let s := produce s (hRing q.header) (mkRecord (hTag q.header) q.fault q.status 1 q.queue)
  let s := s.modReplay r (fun q => { q with finished := true })
  let s := s.modQueue q.queue (fun g => { g with running := g.running - 1 })
  let next := s.replays.findIdx? (fun p => p.pends q.pasid q.object)
  markQueues (match next with | some i => s.modReplay i Replay.start | none => s)
/-- Whether a node's action is over: an EVENT node's when its own record has been written (R357). -/
def nodeOver (s : State) (r n : Nat) : Bool :=
  let m := s.node r n
  match m.stat with
  | .acted => true
  | .running => nKind m.raw == 5 && !s.records.any (fun e => e.node == some (r, n))
  | _ => false
/-- NODE_COMPLETE (R359). -/
def execNodeComplete (replay node : Nat) (s : State) : Host.Outcome State Fault Refusal :=
  due "NODE_COMPLETE" (
    let q := s.replay replay
    if !q.started || q.finished || !nodeOver s replay node then none
    else
      let t := ackInvals (s.modReplay replay (fun q => q.complete node))
      if !(t.replay replay).idle then some t
      else if recordsFull s (hRing q.header) then none
      else some (endReplay t replay))

end Sys2Proof.Machine
end

