-- ==== Sys2Proof/Machine/Regs.lean ====
section
/-!
DEFINITION. The registers of BAR0 (R423): what each reads, and what a write to one without a behaviour of its own does (R5, R347,
R366, R367, R379, R401, R411, R418, R424, R425, R427 to R434).
-/
namespace Sys2Proof.Machine
open Sys2Proof

/-- A word of bits: field `v` of `n` bits at `lo`. -/
def field (v lo n : Nat) : Nat := v % 2 ^ n * 2 ^ lo
/-- The bits [lo + n - 1 : lo] of a written word, in place. -/
def keep (v : W64) (lo n : Nat) : Nat := field (bitsAt v lo n) lo n
/-- A SIZE field: 13 to 15 read as 12 (R347, R367). -/
def keepSize (v : W64) : Nat := min 12 (bitsAt v 0 4)
/-- A 57-bit address register. -/
def keepAddr (v : W64) : W64 := BitVec.ofNat 64 (keep v 0 57)

/-- HEALTH (R430). -/
def State.health (s : State) : W64 :=
  let d := s.dev
  BitVec.ofNat 64 ((if d.replace then 2 ^ 63 else 0) + field d.reason.toNat 56 7 + field d.reasons.toNat 48 8 + field d.spares 40 8 +
    field d.uecount 32 8 + field d.cecount 0 32)
/-- PCTL reads only DRAIN (R379). -/
def Part.pctl (q : Part) : W64 := if q.drain then 4 else 0
/-- PSTAT (R379). -/
def Part.pstat (q : Part) : W64 := BitVec.ofNat 64 (field q.haltclk.toNat 32 32 + q.state.toNat)
/-- XLSTAT (R401). -/
def Part.xlstat (q : Part) : W64 :=
  BitVec.ofNat 64 ((if q.rfail then 2 ^ 63 else 0) + field (min q.outreq 512) 32 10 + field (min q.groups 65535) 16 16 + min (q.atsreq / 256) 65535)
/-- MINBANKS of THR (R433). -/
def State.minBanks (s : State) : Nat := s.dev.perm.foldl min 32
/-- THR (R433). -/
def State.thr (s : State) : W64 :=
  BitVec.ofNat 64 (field s.dev.thrclk.toNat 32 32 + field s.minBanks 8 6 + field s.dev.clkn 0 5)

/-- The registers of the first 4 KiB (R427 to R433). -/
def lowReg (s : State) (off : Nat) : W64 :=
  let d := s.dev
  if off = 0x100 then d.bootstat
  else if off = 0x200 then d.defsig
  else if off = 0x208 then d.clusten.setWidth 64
  else if off = 0x210 then BitVec.ofNat 64 (bitsAt d.clusten 64 8)
  else if off = 0x300 then (if d.attBusy then 1#64 <<< 63 else 0)
  else if off = 0x400 then s.health
  else if off = 0x408 then d.hvec.setWidth 64
  else if off = 0x500 then d.plimit.setWidth 64
  else if off = 0x508 then d.pwr.setWidth 64
  else if off = 0x510 then BitVec.ofNat 64 (bitsAt d.temp 0 48)
  else if off = 0x518 then s.thr
  else if off = 0x700 then d.snapctl
  else if off = 0x708 then d.snapclk
  else 0
/-- A register of a submission queue (R347). -/
def queueReg (q : Queue) (r : Nat) : W64 :=
  if r = 0 then q.base else if r = 8 then q.ctl else if r = 0x10 then q.tail.setWidth 64 else if r = 0x18 then q.head.setWidth 64 else 0
/-- A register of an event ring (R367). -/
def ringReg (g : Ring) (r : Nat) : W64 :=
  if r = 0 then g.base else if r = 8 then g.ctl else if r = 0x10 then g.coal
  else if r = 0x18 then g.tail.setWidth 64 else if r = 0x20 then g.head.setWidth 64 else 0
/-- A register of a partition (R379). -/
def partReg (q : Part) (r : Nat) : W64 :=
  if r = 0 then q.phbase else if r = 8 then q.ptrapv.setWidth 64 else if r = 0x10 then q.pfault
  else if r = 0x18 then q.pfidx.setWidth 64 else if r = 0x20 then q.psave else if r = 0x28 then q.pctl
  else if r = 0x30 then q.pstat else 0
/-- A doubleword of the snapshot records: of a unit's record the layout is not given, and a number outside the table reads 0 (R432;
log 42). -/
def snapRead (s : State) (off : Nat) : W64 :=
  let u := off / 256
  if 661 ≤ u then 0
  else Config.snapWord s.dev.snapclk u (match s.dev.snaps.find? (fun e => e.1 == u) with | some e => e.2 | none => []) (off % 256)
/-- The 64-bit word that BAR0 reads at an offset that is a multiple of 8; reserved offsets read 0 (R423). -/
def bar0Read (s : State) (off : Nat) : W64 :=
  if off < 0x1000 then lowReg s off
  else if off < 0x1200 then BitVec.ofNat 64 (bitsAt s.dev.badxa (8 * (off - 0x1000)) 64)
  else if off < 0x80000 then 0
  else if off < 0x100000 then snapRead s (off - 0x80000)
  else if off < 0x101000 then queueReg (s.queue ((off - 0x100000) / 0x40)) (off % 0x40)
  else if off < 0x110000 then 0
  else if off < 0x110400 then ringReg (s.ring ((off - 0x110000) / 0x40)) (off % 0x40)
  else if off < 0x120000 then 0
  else if off < 0x120020 then ((s.part ((off - 0x120000) / 8)).intrude).setWidth 64
  else if off < 0x130000 then 0
  else if off < 0x130400 then partReg (s.part ((off - 0x130000) / 0x100)) (off % 0x100)
  else if off = 0x130400 then s.dev.ways.setWidth 64
  else if off < 0x140000 then 0
  else if off < 0x140400 then (if off % 0x100 = 0 then (s.part ((off - 0x140000) / 0x100)).xlstat else 0)
  else if off < 0x150000 then 0
  else if off < 0x150200 then (if off % 0x40 = 0 then
    (let i := (off - 0x150000) / 0x40
     BitVec.ofNat 64 (field (nth 0 s.dev.defers i).toNat 32 32 + field (nth 32 s.dev.perm i) 0 6)) else 0)
  else if off = 0x150400 then BitVec.ofNat 64 s.aff
  else if off < 0x160000 then 0
  else if off < 0x160300 then (if off % 0x40 = 0 then nth 0 s.dev.linkstat ((off - 0x160000) / 0x40) else 0)
  else if off = 0x160C00 then s.dev.linkid.setWidth 64
  else if 0x161000 ≤ off ∧ off < 0x161100 ∧ off % 0x10 = 0 then nth 0 s.dev.peerwin ((off - 0x161000) / 0x10)
  else 0

/-- What a read of a register gets: after a failed bring-up only BOOTSTAT, HEALTH and the attestation mailbox answer (R427). -/
def bar0Answer (s : State) (off : Nat) : Option W64 :=
  if s.answers || off == 0x100 || off == 0x300 || off == 0x400 then some (bar0Read s off) else none
/-- Whether a write is an event of its own; a value that sets no bit that acts (of SNAPTRIG, PCTL or XLSTAT) is an ordinary write
without effect (R5, R379, R401, R431). -/
def ownEvent (off : Nat) (v : W64) : Bool :=
  off == 0x300 || off == 0x500 || (off == 0x710 && v.getLsbD 0) || off == 0x130400 || off == 0x130408 || off == 0x150400 ||
  (decide (0x100000 ≤ off) && decide (off < 0x101000) && off % 0x40 == 0x10) ||
  (decide (0x110000 ≤ off) && decide (off < 0x110400) && off % 0x40 == 0x20) ||
  (decide (0x130000 ≤ off) && decide (off < 0x130400) && off % 0x100 == 0x28 && bitsAt v 0 2 != 0) ||
  (decide (0x140000 ≤ off) && decide (off < 0x140400) && off % 0x100 == 0 && v.getLsbD 63)
/-- A write to a queue's QBASE or QCTL (R347). -/
def queueWrite (q : Queue) (r : Nat) (v : W64) : Queue :=
  if r = 0 then { q with base := keepAddr v }
  else if r = 8 then { q with ctl := BitVec.ofNat 64 (keep v 32 20 + keep v 7 1 + keep v 4 3 + keepSize v) }
  else q
/-- A write to a ring's RBASE, RCTL or RCOAL (R367). -/
def ringWrite (g : Ring) (r : Nat) (v : W64) : Ring :=
  if r = 0 then { g with base := keepAddr v }
  else if r = 8 then { g with ctl := BitVec.ofNat 64 (keep v 32 20 + keep v 16 16 + keep v 8 8 + keep v 4 1 + keepSize v) }
  else if r = 0x10 then { g with coal := BitVec.ofNat 64 (keep v 16 16 + keep v 0 8) }
  else g
/-- A write to a partition's PHBASE, PTRAPV, PFAULT or PSAVE (R379). -/
def partWrite (q : Part) (r : Nat) (v : W64) : Part :=
  if r = 0 then { q with phbase := keepAddr v }
  else if r = 8 then { q with ptrapv := v.setWidth 32 }
  else if r = 0x10 then { q with pfault := keepAddr v }
  else if r = 0x20 then { q with psave := keepAddr v }
  else q
/-- FULL of SNAPCTL cleared: the records are let go and triggers are accepted again (R431). -/
def clearFull (s : State) : State := { s with dev := { s.dev with snapctl := putBits s.dev.snapctl 3 1 0 } }
/-- A write to SNAPCTL: ARM, PINEN and FLTEN, and FULL cleared by a 1 (R431). -/
def snapctlWrite (s : State) (v : W64) : State :=
  let s := { s with dev := { s.dev with snapctl := putBits s.dev.snapctl 0 3 (bitsAt v 0 3) } }
  if v.getLsbD 3 then clearFull s else s
/-- A write to a BAR0 register sets its RW fields; reserved offsets and read-only registers ignore it (R5, R347, R423). -/
def bar0Write (s : State) (off : Nat) (v : W64) : State :=
  if off = 0x400 then { s with dev := { s.dev with uecount := bitsAt v 32 8, cecount := bitsAt v 0 32 } }
  else if off = 0x408 then { s with dev := { s.dev with hvec := v.setWidth 16 } }
  else if off = 0x700 then snapctlWrite s v
  else if off < 0x100000 then s
  else if off < 0x101000 then markQueues (s.modQueue ((off - 0x100000) / 0x40) (fun q => queueWrite q (off % 0x40) v))
  else if off < 0x110000 then s
  else if off < 0x110400 then s.modRing ((off - 0x110000) / 0x40) (fun g => ringWrite g (off % 0x40) v)
  else if off < 0x120000 then s
  else if off < 0x120020 then s.modPart ((off - 0x120000) / 8) (fun q => { q with intrude := v.setWidth 32 })
  else if off < 0x130000 then s
  else if off < 0x130400 then s.modPart ((off - 0x130000) / 0x100) (fun q => partWrite q (off % 0x100) v)
  else if off = 0x160C00 then { s with dev := { s.dev with linkid := v.setWidth 8 } }
  else if 0x161000 ≤ off ∧ off < 0x161100 ∧ off % 0x10 = 0 then
    let w := BitVec.ofNat 64 (keep v 63 1 + keep v 40 17 + keep v 32 8 + keep v 0 12)
    { s with dev := { s.dev with peerwin := s.dev.peerwin.set ((off - 0x161000) / 0x10) w } }
  else s
/-- REGISTER_WRITE: a 64-bit write to a register that has no event of its own; when bring-up has failed only HEALTH answers (R5,
R427). -/
def execRegisterWrite (off : Nat) (v : BitVec 64) (s : State) : Host.Outcome State Fault Refusal :=
  due "REGISTER_WRITE" (if ownEvent off v || off % 8 != 0 then none else some (if s.answers || off == 0x400 then bar0Write s off v else s))
/-- XARELEASE_WRITE: an array returned to no tenant, unless an admitted launch or a saved partition holds it (R351, R379). -/
def execXareleaseWrite (v : BitVec 64) (s : State) : Host.Outcome State Fault Refusal :=
  let a := bitsAt v 0 12
  .next (if !s.answers || s.live.any (fun l => l.grantsArray a) then s else { s with arrays := mapDel s.arrays a })
/-- SHADOWWAYS_WRITE: 0 or 11, while every partition is in RUN; ways taken from programs lose their lines (R84, R379, R389). -/
def execShadowwaysWrite (v : BitVec 64) (s : State) : Host.Outcome State Fault Refusal :=
  .next (if s.answers && s.parts.all (fun q => q.state == 0) then
      trimL2 { s with dev := { s.dev with ways := if bitsAt v 0 4 = 11 then 11 else 0 } } else s)
/-- CMAP_WRITE: AFFGIB, while no launch is admitted; one that waits for its window is not yet (R352, R411). -/
def execCmapWrite (v : BitVec 64) (s : State) : Host.Outcome State Fault Refusal :=
  .next (if s.answers && s.launches.all (fun l => l.stat == .window || l.stat == .retired) then { s with dev := { s.dev with affgib := v.setWidth 6 } } else s)
/-- XLSTAT_RFAIL_CLEAR: page requests flow again (R400, R401). -/
def execXlstatRfailClear (part : Nat) (s : State) : Host.Outcome State Fault Refusal :=
  .next (if s.answers then s.modPart part (fun q => { q with rfail := false }) else s)

end Sys2Proof.Machine
end

