-- ==== Sys2Proof/Machine/Partition.lean ====
section
/-!
DEFINITION. Partition pre-emption: halting, saving, restoring (R169, R365, R387 to R392).
-/
namespace Sys2Proof.Machine
open Sys2Proof

/-- The partition of a core. -/
def partOf (core : Nat) : Nat := core / 64
/-- Whether a pack belongs to a pre-emptible launch of a partition that runs. -/
def isPre (s : State) (q : Nat) (x : Pack) : Bool :=
  let l := s.launch x.launch
  l.part == q && l.preempt && l.stat == .running && !x.retired
/-- Whether an operation is of the MMA class, or another member's share of one (R167, R169). -/
def Op.isMma (o : Op) : Bool :=
  match o.body with
  | .mma _ => true
  | .mate _ => o.k == some .mx
  | .mzero _ _ _ => true
  | .mlda _ _ _ _ _ => true
  | .msta _ _ _ _ _ => true
  | .wbld _ _ _ => true
  | _ => false
/-- Whether a part of a copy waits for the number of a command that a guard holds (R147). -/
def partHeld (s : State) (o : Op) : Bool :=
  o.parts.any (fun q => !q.applied && (match mapGet s.seqs q.region with
    | some v => s.ops.any (fun r => guardHeld s r && r.parts.any (fun t => t.region == q.region && t.num == v.2.2))
    | none => false))
/-- Operations that do not delay the halt: held stores of open regions, copies that a guard holds or keeps behind it, MMA-class
operations, Cellar jobs, and an XPROG or XCAL of which only the decrement is still to come. R178 has an array's operation act and write its
registers before the save, and R388 lets the decrement of an XPROG or XCAL come after it (R153, R178, R370, R388; DEDUCED, log 117). -/
def mayStay (s : State) (o : Op) : Bool :=
  o.done || o.acted || o.isMma || o.isHeld || (match o.body with
  | .copy _ => guardHeld s o || partHeld s o
  | .job _ => true
  | _ => false)
/-- Whether a halting partition is halted: the packs at their headers with no cause still to be taken there, and the operations
of their launches done, those of packs that have retired too (R12, R372, R387, R388). -/
def haltReady (s : State) (q : Nat) : Bool :=
  (s.part q).state == 1 && !(s.part q).halted &&
  s.packs.all (fun x => !isPre s q x || (x.lead.atTop && x.heel.atTop && x.pending.all (fun e =>
    e.slot.isNone && [x.lead, x.heel].all (fun sl => match sl.path with | some r => r.mask &&& e.lanes == 0 | none => true)))) &&
  s.ops.all (fun o => mayStay s o || o.node.isSome || !((s.launch o.launch).part == q && (s.launch o.launch).preempt)) &&
  s.launches.all (fun l => l.part != q || l.stat == .retired || l.stat == .window || (l.stat == .running && l.preempt))

/-- PCTL_PRE_WRITE: ignored unless STATE is RUN (R379, R387). -/
def execPctlPreWrite (part : Nat) (s : State) : Host.Outcome State Fault Refusal :=
  .next (if s.answers && (s.part part).state == 0
    then markQueues (s.modPart part (fun q => { q with state := 1, preAt := s.clk.toNat, halted := false })) else s)
/-- The MMA-class operations of launches abandoned, those of packs that have retired too: counters cleared and flag holds released, and
the finished operations behind them retire (R114, R169). -/
def abandonMx (s : State) (mine : Launch → Bool) : State :=
  let gone := s.ops.filter (fun o => o.isMma && o.pack.isSome && mine (s.launch o.launch))
  let s := { s with ops := s.ops.filter (fun o => !gone.any (fun g => g.id == o.id)) }
  (gone.map (·.pack)).eraseDups.foldl (fun s p => retireClass s p (some .mx)) <| gone.foldl (fun s o => match o.pack with
    | some p => s.modPack p (fun x => { x with
        k := modNth x.k KCls.mx.ix (fun n => n - 1),
        fholds := if o.flag = 15 then x.fholds else modNth x.fholds o.flag (fun n => n - 1) })
    | none => s) s
/-- What halting a partition does: packs stopped at their headers, MMA-class operations abandoned, tiles discarded, L1 contents and
TLB entries dropped; held-add windows stay open (R169, R387, R388, R391). INEXACT of a discarded tile, of which R169 does not speak, is
cleared (DESIGN CHOICE, log 108). -/
def haltPart (s : State) (q : Nat) : State :=
  let mine := isPre s q
  let s := abandonMx s (fun l => l.part == q && l.preempt && l.stat == .running)
  let pks := (List.range s.packs.length).filter (fun p => mine (s.pack p))
  let blk := fun (b : Block) => !b.retired && (s.launch b.launch).part == q && (s.launch b.launch).preempt
  let here := fun (t : Tlb) => match t.tc with
    | .l1 c => partOf c == q
    | .courier c => partOf c == q
    | .engine e => e / 16 == q
    | _ => false
  { s with
    packs := s.packs.map (fun x => if mine x then { x with stopped := true, lead := x.lead.toHeader, heel := x.heel.toHeader } else x),
    blocks := s.blocks.map (fun b => if blk b then { b with tiles := b.tiles.map (fun _ => { lost := true }) } else b),
    mem := { s.mem with l1 := s.mem.l1.filter (fun e => partOf (e.1 % 256) != q) },
    tlbs := s.tlbs.filter (fun t => !here t),
    mshr := { s.mshr with rejected := s.mshr.rejected.filter (fun r => !pks.contains r.pack),
                          turned := s.mshr.turned.filter (fun t => !pks.contains (t.who / 2)),
                          held := s.mshr.held.filter (fun c => c == 256 || partOf c != q) } }
/-- PARTITION_HALTED: HALTCLK, and the save begins or waits for the shadow (R387 to R391). -/
def execPartitionHalted (part : Nat) (s : State) : Host.Outcome State Fault Refusal :=
  due "PARTITION_HALTED" (
    if !haltReady s part then none
    else
      let t := (haltPart s part).modPart part (fun q => { q with halted := true, haltclk := BitVec.ofNat 32 (s.clk.toNat - q.preAt) })
      some (settle { t with shadow := if s.dev.ways = 11 then t.shadow ++ [(part, false)] else t.shadow }))

/-- The next user of the shadow: a restore begins with DRAIN (R389). -/
def startShadow (s : State) : State :=
  match s.shadow with
  | (q, true) :: _ => s.modPart q (fun r => { r with drain := true })
  | _ => s
/-- The shadow let go to the next that waits for it (R389). -/
def freeShadow (s : State) : State := startShadow { s with shadow := s.shadow.drop 1 }
/-- Whether a partition has the shadow, to save or to restore, or needs none (R389). -/
def hasShadow (s : State) (q : Nat) (restore : Bool) : Bool := s.dev.ways != 11 || s.shadow.head? == some (q, restore)
/-- Bytes of device memory set to zero. -/
def zeroBytes (s : State) (lo n : Nat) : State :=
  let within := fun (w : Nat) => decide (lo ≤ 4 * w) && decide (4 * w < lo + n)
  { s with mem := { s.mem with
    ram := s.mem.ram.filter (fun c => !(decide (lo ≤ c.1) && decide (c.1 < lo + n))),
    l2 := s.mem.l2.filter (fun e => !within e.1),
    l1 := s.mem.l1.filter (fun e => !within (e.1 / 256)),
    owner := s.mem.owner.filter (fun e => !within e.1),
    poison := s.mem.poison.filter (fun e => !within e.1) } }
/-- The bus address of a core's image at PSAVE (R390). -/
def imageAt (s : State) (core : Nat) : Nat := bitsAt (s.part (partOf core)).psave 0 57 + 2 ^ 21 * (core % 64)
/-- The stopped packs of a core, each with its first register of the core's pool, in pack order (R390; log 41). -/
def imagePacks (s : State) (core : Nat) : List (Nat × Nat) :=
  ((List.range s.packs.length).filter (fun p => (s.pack p).stopped && (s.pack p).core == core)).foldl
    (fun es p => es ++ [(p, (es.map (fun e => (s.pack e.1).alloc)).sum)]) []
/-- The blocks of a core's stopped packs, each with the core's place among its cores and the scratchpad offset of its data, in block
order (R390; log 41). -/
def imageBlocks (s : State) (core : Nat) : List (Nat × Nat × Nat) :=
  ((List.range s.blocks.length).filter (fun b => (s.block b).cores.contains core && s.packs.any (fun x => x.stopped && x.block == b))).foldl
    (fun es b => es ++ [(b, (s.block b).cores.idxOf core, (es.map (fun e => (s.launch (s.block e.1).launch).sRound)).sum)]) []
/-- A field of a record in a core image: its width and how it is read from and put into what the record describes. -/
structure RecField (α : Type) where
  w : Nat
  get : α → Nat
  put : Nat → α → α
/-- The fields of a record as numbers. -/
def fieldsOf {α : Type} (fs : List (RecField α)) (x : α) : List Nat := fs.map (fun f => f.get x)
/-- The bytes of a record of `n` bytes, as the free layout has them (R390; log 41). -/
def recordBytes {α : Type} (kind n : Nat) (fs : List (RecField α)) (x : α) : List (BitVec 8) :=
  (List.range n).map (Config.recordByte kind (fieldsOf fs x))
/-- A record read back, `old` being its fields as they were saved: bytes that are still those leave what they describe as it is, with what
operations have changed there since the save, and others stand for some values of the fields (R388, R391; log 41). -/
def recordBack {α : Type} (kind : Nat) (fs : List (RecField α)) (old : List Nat) (bs : List (BitVec 8)) (x : α) : α :=
  if bs = (List.range bs.length).map (Config.recordByte kind old) then x
  else fs.zipIdx.foldl (fun x f => f.1.put (Config.recordField kind bs f.2 % 2 ^ f.1.w) x) x
/-- A path as a number, 0 where there is none; and back (R20). -/
def pathBits : Option Path → Nat
  | none => 0
  | some q => q.mask.toNat + 2 ^ 16 * (q.pc / 8 % 2 ^ 29) + 2 ^ 45 * rpcField q.rpc
def bitsPath (n : Nat) : Option Path :=
  if n % 2 ^ 16 = 0 then none else some ⟨8 * (n / 2 ^ 16 % 2 ^ 29), BitVec.ofNat 16 n, ofRpcField (n / 2 ^ 45 % 2 ^ 29)⟩
/-- The fields of a pack record (R390). -/
def packFields : List (RecField Pack) :=
  let word := fun (get : Pack → W64) (put : W64 → Pack → Pack) =>
    (⟨64, fun x => (get x).toNat, fun v => put (BitVec.ofNat 64 v)⟩ : RecField Pack)
  (List.range 96).map (fun i => word (·.sget i) (fun v x => x.sset i v)) ++
  (List.range 7).map (fun i => ⟨16, fun x => (x.pget i).toNat, fun v x => { x with p := x.p.set i (BitVec.ofNat 16 v) }⟩) ++
  (List.range 128).map (fun i => ⟨24, fun x => (nth 0 x.q i).toNat, fun v x => { x with q := x.q.set i (BitVec.ofNat 24 v) }⟩) ++
  (List.range 8).map (fun i => ⟨2, fun x => (match nth none x.gs i with | none => 0 | some false => 1 | some true => 2),
    fun v x => { x with gs := x.gs.set i (if v = 0 then none else some (v != 1)) }⟩) ++
  (List.range 12).map (fun i => ⟨6, fun x => nth 0 x.fholds i, fun v x => { x with fholds := x.fholds.set i v }⟩) ++
  (List.range 6).map (fun i => ⟨6, fun x => nth 0 x.k i, fun v x => { x with k := x.k.set i v }⟩) ++
  [⟨74, fun x => pathBits x.lead.path, fun v x => { x with lead := { x.lead with path := bitsPath v } }⟩,
   ⟨74, fun x => pathBits x.heel.path, fun v x => { x with heel := { x.heel with path := bitsPath v } }⟩,
   ⟨32, fun x => x.beta.toNat, fun v x => { x with beta := BitVec.ofNat 32 v }⟩,
   word (·.seed) (fun v x => { x with seed := v }), word (·.trapv) (fun v x => { x with trapv := v }),
   word (·.trapc) (fun v x => { x with trapc := v }), word (·.trapa) (fun v x => { x with trapa := v }),
   word (·.xbnd) (fun v x => { x with xbnd := v }), word (·.lclk) (fun v x => { x with lclk := v }),
   ⟨154, fun x => (match x.sect with
      | none => 0
      | some c => pathBits (some ⟨c.label, c.mask, c.rpc⟩) + 2 ^ 74 * (c.depth % 2 ^ 16) + 2 ^ 90 * c.lclk.toNat),
    fun v x => { x with sect := (bitsPath v).map (fun q => ⟨q.pc, q.mask, q.rpc, v / 2 ^ 74 % 2 ^ 16, BitVec.ofNat 64 (v / 2 ^ 90)⟩) }⟩,
   ⟨154, fun x => (match x.region with
      | none => 0
      | some r => pathBits (some ⟨r.pc, r.mask, r.rpc⟩) + 2 ^ 74 * (r.depth % 2 ^ 16) + 2 ^ 90 * r.lclk.toNat),
    fun v x => { x with region := x.region.map (fun r => match bitsPath v with
      | some q => { r with pc := q.pc, mask := q.mask, rpc := q.rpc, depth := v / 2 ^ 74 % 2 ^ 16, lclk := BitVec.ofNat 64 (v / 2 ^ 90) }
      | none => r) }⟩,
   ⟨64, fun x => x.pmode.toNat, fun _ x => x⟩] ++
  (List.range 16).map (fun i => ⟨32, fun x => (nth 0 x.refs i).toNat, fun v x => { x with refs := x.refs.set i (BitVec.ofNat 32 v) }⟩) ++
  (List.range 4).map (fun i => word (fun x => nth 0 x.pscr i) (fun v x => { x with pscr := x.pscr.set i v }))
/-- The fields of a block record (R390). -/
def blockFields : List (RecField Block) :=
  (List.range 32).map (fun i => ⟨570, fun b => (match nth none b.slots i with | none => 0 | some d => 1 + 2 * d.raw.toNat + 2 ^ 513 * d.home),
    fun v b => { b with slots := b.slots.set i (if v % 2 = 0 then none else some ⟨BitVec.ofNat 512 (v / 2), v / 2 ^ 513⟩) }⟩) ++
  (List.range 16).map (fun i => ⟨64, fun b => (let r := nth {} b.bars i; r.expect + 2 ^ 16 * r.arr + 2 ^ 32 * r.phase.toNat),
    fun v b => { b with bars := b.bars.set i ⟨v % 2 ^ 16, v / 2 ^ 16 % 2 ^ 16, BitVec.ofNat 32 (v / 2 ^ 32)⟩ }⟩)
/-- A core's place in the machine with what its header says: each stopped pack's first pool register, and the scratchpad size. -/
structure Header where
  firsts : List Nat
  split : Nat
/-- What a core's header holds beside them: its blocks and packs, and the queued guarded copies in issue order (R390). -/
def headerRest (s : State) (core : Nat) : List Nat :=
  (imageBlocks s core).map (·.1) ++ (imagePacks s core).map (·.1) ++
  s.ops.filterMap (fun o => match o.body with
    | .copy c => if !o.done && c.guard.isSome && o.pack.isSome && s.opCore o == core then some o.id else none
    | _ => none)
/-- The fields of a core's header (R390). -/
def headerFields (s : State) (core : Nat) : List (RecField Header) :=
  (List.range (imagePacks s core).length).map (fun i => ⟨13, fun h => nth 0 h.firsts i, fun v h => { h with firsts := h.firsts.set i v }⟩) ++
  [⟨4, fun h => h.split, fun v h => { h with split := v }⟩] ++ (headerRest s core).map (fun v => ⟨0, fun _ => v, fun _ h => h⟩)
/-- A core's header as the state has it. -/
def headerOf (s : State) (core : Nat) : Header := ⟨(imagePacks s core).map (·.2), (mapGet s.splits core).getD 0⟩

/-- The 16-byte entries of a kennel item, the newest first (R20, R373). -/
def KItem.entries : KItem → List (BitVec 128)
  | .path t q => [kEntry false t 0 q.mask q.rpc q.pc]
  | .join t q a => [kEntry true t a q.mask q.rpc q.pc]
  | .frame f => [f.extractLsb' 256 128, f.extractLsb' 128 128, f.extractLsb' 0 128]
/-- The path or join entry that 16 bytes spell (R20). -/
def entryItem (e : BitVec 128) : KItem :=
  let q : Path := ⟨8 * bitsAt e 0 29, BitVec.ofNat 16 (bitsAt e 67 16), ofRpcField (bitsAt e 38 29)⟩
  if e.getLsbD 119 then .join (bitsAt e 99 20) q (BitVec.ofNat 16 (bitsAt e 83 16)) else .path (bitsAt e 99 20) q
/-- The kennel that entries spell, the newest first, `skip` of them records of the frame before; MARK tells a frame's header (R373). -/
def kItems (skip : Nat) : List (BitVec 128) → List KItem
  | [] => []
  | a :: r =>
    if 0 < skip then kItems (skip - 1) r
    else if bitsAt a 120 8 = 0xA5 ∧ 2 ≤ r.length then .frame (a ++ nth 0 r 0 ++ nth 0 r 1) :: kItems 2 r
    else entryItem a :: kItems 0 r
/-- Where a core's kennel regions and region store buffers lie in its scratchpad: after the blocks' program data (R22, R390, R405; log
41). -/
def kennelAt (s : State) (core i : Nat) : Nat := 0x182000 + ((imageBlocks s core).map (fun e => (s.launch (s.block e.1).launch).sRound)).sum + 512 * i
def bufferAt (s : State) (core i : Nat) : Nat := kennelAt s core (imagePacks s core).length + 2048 * i
/-- The stopped packs of a core whose launch has regions, in pack order. -/
def bufferPacks (s : State) (core : Nat) : List Nat := ((imagePacks s core).map (·.1)).filter (fun p => (s.launchOf p).regions)
/-- The buffered bytes of a pack with their places in its buffer: 64 bytes a line (R405). -/
def buffered (x : Pack) : List (Nat × Nat × BitVec 8) :=
  match x.region with
  | none => []
  | some r => r.lines.zipIdx.flatMap (fun l => l.1.bytes.map (fun b => (64 * l.2 + b.1, l.1.addr + b.1, b.2)))
/-- Buffered bytes read back: in the buffer, in the stores that it holds and in what loads have still to receive of it. -/
def bufferBack (s : State) (p : Nat) (byte : Nat → BitVec 8) : State :=
  let new : List (Nat × BitVec 8) :=
    (buffered (s.pack p)).filterMap (fun e => if byte e.1 = e.2.2 then none else some (e.2.1, byte e.1))
  if new.isEmpty then s
  else
    let now := fun (e : Nat × BitVec 8) => match new.find? (fun n => n.1 == e.1) with | some n => n | none => e
    let s := s.modPack p (fun x => { x with region := x.region.map (fun r => { r with lines := r.lines.zipIdx.map (fun l =>
      { l.1 with bytes := l.1.bytes.map (fun b => (b.1, byte (64 * l.2 + b.1))) }) }) })
    { s with ops := s.ops.map (fun o => if o.pack == some p && !o.done then { o with vbytes := o.vbytes.map now, fwd := o.fwd.map now } else o) }

/-- A core's image written at PSAVE, its packs and blocks keeping the fields of their records as saved: the header, the pack and block
records, the vector register file in pool order, the provenance tags, the reserved range, zero, the blocks' scratchpad data, the kennel
regions and the region store buffers; what a caravan's cores share is in the core of its logical pack 0 (R390; log 41). -/
def writeImage (s : State) (core : Nat) : State :=
  let put := fun (s : State) (off : Nat) (bs : List (BitVec 8)) =>
    engineWrite s (bs.zipIdx.map (fun e => (s.busKey (imageAt s core + off + e.2), e.1)))
  let ps := imagePacks s core
  let t := put s 0 (recordBytes 0 4096 (headerFields s core) (headerOf s core))
  let t := ps.zipIdx.foldl (fun t e => put t (0x1000 + 1536 * e.2) (recordBytes 1 1536 packFields (s.pack e.1.1))) t
  let t := (imageBlocks s core).zipIdx.foldl (fun t e =>
    if e.1.2.1 = 0 then put t (0x61000 + 2560 * e.2) (recordBytes 2 2560 blockFields (s.block e.1.1)) else t) t
  let t := ps.foldl (fun t e => put t (0x101000 + 64 * e.2) ((s.pack e.1).v.flatMap (fun w => leBytes w.toNat 4))) t
  let ts := ps.flatMap (fun e => (s.pack e.1).tags)
  let t := put t 0x181000 ((List.range ((ts.length + 7) / 8)).map (fun i =>
    BitVec.ofNat 8 ((List.range 8).map (fun j => if nth false ts (8 * i + j) then 2 ^ j else 0)).sum))
  let t := (List.range 3).foldl (fun t i => zeroBytes t (t.busKey (imageAt t core + 0x181400 + 1024 * i)) 1024) t
  let t := (imageBlocks s core).foldl (fun t e =>
    let b := s.block e.1
    put t (0x182000 + e.2.2) ((List.range (s.launch b.launch).sRound).map (scrRead b e.2.1))) t
  let t := ps.zipIdx.foldl (fun t e =>
    put t (kennelAt s core e.2) ((((s.pack e.1.1).kennel.flatMap KItem.entries).take 32).reverse.flatMap (fun v => leBytes v.toNat 16))) t
  let t := (bufferPacks s core).zipIdx.foldl (fun t e => (buffered (s.pack e.1)).foldl (fun t b => put t (bufferAt s core e.2 + b.1) [b.2.2]) t) t
  let t := ps.foldl (fun t e => t.modPack e.1 (fun x => { x with image := fieldsOf packFields x })) t
  (imageBlocks s core).foldl (fun t e => if e.2.1 = 0 then t.modBlock e.1 (fun b => { b with image := fieldsOf blockFields b }) else t) t
/-- A core's image read back from PSAVE into the stopped packs and their blocks (R389, R390; log 41). -/
def readImage (s : State) (core : Nat) : State :=
  let byte := fun (off : Nat) => memByte s (s.busKey (imageAt s core + off))
  let bytes := fun (off n : Nat) => (List.range n).map (fun i => byte (off + i))
  let word := fun (off : Nat) => BitVec.ofNat 32 (ofBytes (bytes off 4))
  let h := recordBack 0 (headerFields s core) (fieldsOf (headerFields s core) (headerOf s core)) (bytes 0 4096) (headerOf s core)
  let ps := (imagePacks s core).zipIdx
  let t := if h.split = (headerOf s core).split then s else setSplit s core h.split
  let t := ps.foldl (fun t e =>
    let r := nth 0 h.firsts e.2
    t.modPack e.1.1 (fun x =>
      let x := recordBack 1 packFields x.image (bytes (0x1000 + 1536 * e.2) 1536) x
      let es := x.kennel.flatMap KItem.entries
      let n := min 32 es.length
      let local' := ((List.range n).map (fun i => BitVec.ofNat 128 (ofBytes (bytes (kennelAt s core e.2 + 16 * i) 16)))).reverse
      { x with
        v := (List.range x.v.length).map (fun i => word (0x101000 + 64 * r + 4 * i)),
        tags := (List.range x.tags.length).map (fun i => (byte (0x181000 + (r + i) / 8)).getLsbD ((r + i) % 8)),
        kennel := if local' = es.take n then x.kennel else kItems 0 (local' ++ es.drop n) })) t
  let t := (imageBlocks s core).zipIdx.foldl (fun t e => t.modBlock e.1.1 (fun b =>
    let b := if e.1.2.1 = 0 then recordBack 2 blockFields b.image (bytes (0x61000 + 2560 * e.2) 2560) b else b
    scrWrites b e.1.2.1 0 (bytes (0x182000 + e.1.2.2) (s.launch b.launch).sRound))) t
  (bufferPacks s core).zipIdx.foldl (fun t e => bufferBack t e.1 (fun i => byte (bufferAt s core e.2 + i))) t
/-- The images of a partition's 64 cores written to PSAVE, or read back from there (R389, R390). -/
def writeImages (s : State) (q : Nat) : State := ((List.range 64).map (64 * q + ·)).foldl writeImage s
def readImages (s : State) (q : Nat) : State := ((List.range 64).map (64 * q + ·)).foldl readImage s
/-- SHADOW_SAVE_DONE: the images are saved and STATE is SAVED; DRAIN copies them to PSAVE where they went to the shadow (R389). -/
def execShadowSaveDone (part : Nat) (s : State) : Host.Outcome State Fault Refusal :=
  due "SHADOW_SAVE_DONE" (
    let q := s.part part
    if q.state == 1 && q.halted && hasShadow s part false then
      let t := s.modPart part (fun q => { q with state := 2, drain := s.dev.ways == 11 })
      some (if s.dev.ways = 11 then t else writeImages t part)
    else none)
/-- DRAIN_DONE: the images are at PSAVE and the shadow is free, or they are in the shadow (R389). -/
def execDrainDone (part : Nat) (s : State) : Host.Outcome State Fault Refusal :=
  due "DRAIN_DONE" (
    let t := s.modPart part (fun q => { q with drain := false })
    if !(s.part part).drain then none
    else if s.shadow.head? = some (part, false) then some (freeShadow (writeImages t part))
    else if s.shadow.head? = some (part, true) then some (readImages t part)
    else none)
/-- PCTL_RESUME_WRITE: ignored unless STATE is SAVED (R379, R389). -/
def execPctlResumeWrite (part : Nat) (s : State) : Host.Outcome State Fault Refusal :=
  .next (if s.answers && (s.part part).state == 2 then
      let t := s.modPart part (fun q => { q with state := 3 })
      if s.dev.ways = 11 then
        let u := { t with shadow := t.shadow ++ [(part, true)] }
        if t.shadow.isEmpty then startShadow u else u
      else t
    else s)

/-! ### Section restart -/

/-- The items above the topmost user frame, the frame, and the items below it. -/
def splitUser : List KItem → Option (List KItem × BitVec 384 × List KItem)
  | [] => none
  | .frame f :: k => if framePriv f then (splitUser k).map (fun r => (.frame f :: r.1, r.2)) else some ([], f, k)
  | .path t q :: k => (splitUser k).map (fun r => (.path t q :: r.1, r.2))
  | .join t q a :: k => (splitUser k).map (fun r => (.join t q a :: r.1, r.2))
/-- The restart of an open section at MRL; a user frame on the kennel has its slot records replaced instead (R169, R365, R392). -/
def restartSection (x : Pack) : Pack :=
  match x.sect with
  | none => x
  | some c =>
    let top : Slot := x.lead.take ⟨c.label, c.mask, c.rpc⟩ x.stamp
    let x := { x with lclk := c.lclk }
    match splitUser x.kennel with
    | some (above, f, below) =>
      let f := putBits f 0 128 (top.record x.stamp).toNat
      let f := putBits f 128 128 0
      let f := putBits (putBits f 302 29 0x1FFFFFFF) 331 29 0x1FFFFFFF
      let f := putBits f 256 16 c.depth
      { x with kennel := above ++ .frame f :: cutKennel c.depth below }
    | none => { x with lead := top, heel := x.heel.clear, kennel := cutKennel c.depth x.kennel }
/-- Teams that no longer meet the conditions of ganging go on as separate packs (R24, R25). -/
def splitTeams (s : State) : State :=
  { s with packs := s.packs.zipIdx.map (fun e =>
      if e.1.gang && !e.1.retired && (s.launch e.1.launch).teamW != 16 && !stillGanged s (s.liveTeam e.2) then { e.1 with gang := false } else e.1) }
/-- RESTORE_DONE: the images come from PSAVE where the shadow is not used, sections restart, the cores acquire, STATE is RUN and the
shadow is free (R122, R169, R389, R391). -/
def execRestoreDone (part : Nat) (s : State) : Host.Outcome State Fault Refusal :=
  due "RESTORE_DONE" (
    let q := s.part part
    if q.state == 3 && !q.drain && hasShadow s part true then
      let mine := isPre s part
      let s := if s.dev.ways = 11 then s else readImages s part
      let t := { s with packs := s.packs.map (fun x =>
        if !x.stopped || (s.launch x.launch).part != part then x
        else if mine x then { restartSection x with stopped := false } else { x with stopped := false }) }
      let t := ((List.range 64).map (64 * part + ·)).foldl acquireCore (splitTeams t)
      let t := t.modPart part (fun q => { q with state := 0, halted := false })
      some (markQueues (if s.dev.ways = 11 then freeShadow t else t))
    else none)

end Sys2Proof.Machine
end

