-- ==== Sys2Proof/Machine/Translate.lean ====
section
/-!
DEFINITION. Answers of the host IOMMU: ATS completions, page requests and their responses, invalidations, and the requeue of aborted
regions (R394 to R403, R406).
-/
namespace Sys2Proof.Machine
open Sys2Proof

/-! ### Waiters -/

/-- `s` with the entry of a page changed. -/
def State.modMerge (s : State) (pasid page : Nat) (f : Merge → Merge) : State :=
  { s with merges := s.merges.map (fun m => if m.isOf pasid page then f m else m) }
/-- `s` without the entry of a page. -/
def State.dropMerge (s : State) (pasid page : Nat) : State := { s with merges := s.merges.filter (fun m => !m.isOf pasid page) }
/-- Whether a waiter is an operation. -/
def isOpWaiter (w : Nat) : Bool := decide (2 ^ 32 ≤ w) && decide (w < 2 ^ 33)
/-- The operations among waiters. -/
def waitingOps (s : State) (who : List Nat) : List Op := s.ops.filter (fun o => !o.done && who.contains (opWaiter o.id))
/-- Whether an operation is cache maintenance, which never faults (R89). -/
def Op.isCmo (o : Op) : Bool := match o.body with | .cmo _ _ _ => true | _ => false
/-- A load of an open region whose page no translation can serve: it ends without data, its region aborts, and XLATE with its lowest
such address waits at the restart point (R405, R406). -/
def failLoad (s : State) (page : Nat) (o : Op) : State :=
  match o.pack, o.body with
  | some p, .load accs _ _ _ _ _ =>
    let mine := (accs.filter (fun a => a.va / 4096 == page)).map (·.va)
    let lo := mine.foldl min (mine.headD 0)
    let m := match (s.pack p).region with | some r => r.mask | none => (s.path p 0).mask
    let s := abortRegion s p
    let s := if (s.pack p).pending.any (fun e => e.cause == cXLATE) then s
      else s.modPack p (fun x => { x with pending := x.pending ++ [{ cause := cXLATE, info := xlateInfo lo false, lanes := m }] })
    completeOp (s.leaveMerge (opWaiter o.id)) o.id
  | _, _ => s
/-- The loads of open regions that meet a page which no translation can serve, as it is known already when they ask for it, end so
(R405, R406). -/
def failLoads (s : State) : State :=
  s.ops.foldl (fun t o => match o.pack, o.body with
    | some p, .load accs _ _ _ _ _ =>
      let x := t.pack p
      let loose := if o.done then [] else accs.filter (fun a => (o.tr.at a.va).isNone)
      (match lowFail (loose.map (fun a => ((a.va, false), t.xlate (.l1 x.core) (t.launch x.launch).pasid (opWaiter o.id) a.va false))) with
       | some a => failLoad t (a.1 / 4096) o
       | none => t)
    | _, _ => t) s
/-- A page that is unrecoverable for its waiters: operations end, and the entry stays for the instructions that have yet to take the
outcome (R396, R397, R400). -/
def failPage (s : State) (pasid page : Nat) : State :=
  match s.mergeOf pasid page with
  | none => s
  | some m =>
    let left := m.waiters.filter (fun w => !isOpWaiter w)
    let s := if left.isEmpty then s.dropMerge pasid page else s.modMerge pasid page (fun m => { m with st := .failed, waiters := left })
    (waitingOps s m.waiters).foldl (fun s o => failLoad s page o) s
/-- A translated page given to the waiting operations (R397, R405). -/
def givePage (s : State) (page : Nat) (who : List Nat) (ph : Nat) : State :=
  { s with ops := s.ops.map (fun o => if !o.done && who.contains (opWaiter o.id) && !o.tr.any (fun e => e.1 == page)
      then { o with tr := o.tr ++ [(page, ph)] } else o) }

/-! ### Completions -/

/-- The cached size of a completion (R395). -/
def cachedSize (size : Nat) : Nat :=
  if 2 ^ 30 ≤ size then 2 ^ 30 else if 2 ^ 21 ≤ size then 2 ^ 21 else if 2 ^ 16 ≤ size then 2 ^ 16 else 4096
/-- The cached translation of a page from a completion for the block of `size` bytes around it (R394, R395). -/
def tlbOf (tc : Tc) (pasid page size taddr : Nat) (r w : Bool) : Tlb :=
  let va := 4096 * page
  let n := max 4096 size
  let c := cachedSize size
  let base := va / c * c
  ⟨tc, pasid, base, c, taddr + (base - va / n * n), r, w⟩
/-- Whether page requests are stopped (R400). -/
def State.priStopped (s : State) : Bool := s.parts.any (·.rfail)
/-- Whether a group is formed: every other translation of its operation has been answered, or had been (R399). -/
def groupReady (s : State) (g : Group) : Bool := g.rest || g.formed || !s.merges.any (fun m => m.st == .ats && m.waiters.contains g.who)
/-- The groups in their order of forming: one is formed when the last translation of its operation is answered, and stays so (R399). -/
def orderGroups (s : State) : State :=
  { s with groups := (s.groups.filter (groupReady s)).map (fun g => { g with formed := true }) ++ s.groups.filter (fun g => !groupReady s g) }
/-- A faulted page put into the group that its first waiter is forming, or into a new one (R399, R400). -/
def formGroup (s : State) (m : Merge) : State :=
  let who := m.waiters.headD 0
  let page := (m.pasid, m.page, m.write)
  let mine := fun (g : Group) => g.who == who && g.index.isNone && !g.rest && !g.formed
  if s.groups.any mine then { s with groups := s.groups.map (fun g => if mine g then { g with pages := g.pages ++ [page] } else g) }
  else { s with groups := s.groups ++ [{ who := who, index := none, pages := [page], part := m.part }] }
/-- The packs among waiters that wait, in a slot, with an open region that needs a page. -/
def regionWaiters (s : State) (page : Nat) (who : List Nat) : List Nat :=
  ((who.filter (fun w => decide (w < 2 ^ 32))).map (· / 2)).eraseDups.filter (fun p =>
    (match (s.pack p).region with | some r => !r.aborted | none => false) && (s.regionWants p).any (fun a => a.1 / 4096 == page))
/-- A page fault of an entry's waiters: unrecoverable after 16 responses or while page requests are stopped, else a page request;
regions that need the page abort (R397, R399, R400, R406). -/
def pageFault (s : State) (m : Merge) : State :=
  if 16 ≤ m.tries ∨ s.priStopped then failPage s m.pasid m.page
  else
    let cmos := (waitingOps s m.waiters).filter Op.isCmo
    let left := m.waiters.filter (fun v => !cmos.any (fun o => opWaiter o.id == v))
    if left.isEmpty then s.dropMerge m.pasid m.page
    else
      let s := s.modMerge m.pasid m.page (fun m => { m with st := .pri, waiters := left })
      let s := formGroup s { m with waiters := left }
      let s := (waitingOps s left).foldl (fun s o => match o.pack, o.body with
        | some p, .load _ _ _ _ _ _ => abortRegion s p
        | _, _ => s) s
      (regionWaiters s m.page left).foldl abortRegion s
/-- The part of an entry that a completion does not cover, page-faulting: a request asks for write where one of them writes; the entry
goes where there is none (R397). -/
def uncovered (s : State) (m : Merge) (who : List Nat) : State :=
  if who.isEmpty then s.dropMerge m.pasid m.page
  else
    let ws := m.writers.filter who.contains
    let f := fun (m : Merge) => { m with waiters := who, writers := ws, write := !ws.isEmpty }
    pageFault (s.modMerge m.pasid m.page f) (f m)
/-- The part of an entry that a completion covers: the page at `ph` given to its operations; for a page accessed untranslated an entry
stays until the instructions have gone on (R395, R397). -/
def covered (s : State) (m : Merge) (who : List Nat) (ph : Nat) (perm : Option (Bool × Bool)) : State :=
  let left := who.filter (fun w => !isOpWaiter w)
  let s := givePage s m.page who (ph / 4096)
  match perm with
  | some q => if left.isEmpty then s else { s with merges := s.merges ++ [{ m with st := .untr, waiters := left, writers := [], perm := q }] }
  | none => s
/-- ATS_TRANSLATION_COMPLETION: the L2 TLB and the caches of the waiters filled, then each waiter released or faulting by its own access
(R395, R397). -/
def execAtsTranslationCompletion (pasid page size taddr : Nat) (r w u : Bool) (s : State) : Host.Outcome State Fault Refusal :=
  due "ATS_TRANSLATION_COMPLETION" (match s.mergeOf pasid page with
    | none => none
    | some m =>
      if m.st != .ats then none
      else
        let ok := fun (v : Nat) => if m.writers.contains v then w else r
        let good := m.waiters.filter ok
        let bad := m.waiters.filter (fun v => !ok v)
        if u then some (orderGroups (covered (uncovered s m bad) m good (untrBase + 4096 * page) (some (r, w))))
        else
          let t := if r || w then (Tc.l2 :: m.tcs).eraseDups.foldl (fun s tc => s.tlbPut (tlbOf tc pasid page size taddr r w)) s else s
          let e := tlbOf .l2 pasid page size taddr r w
          some (orderGroups (match s.target (e.tbase + (4096 * page - e.base)) with
            | .none => if good.isEmpty then uncovered t m bad else (failPage t pasid page).dropMerge pasid page
            | .device ph => covered (uncovered t m bad) m good ph none
            | .peer ph i => covered (uncovered t m bad) m good (linked ph i) none
            | .host ph => covered (uncovered t m bad) m good ph none)))
/-- ATS_COMPLETION_TIMEOUT: no completion, or one with Unsupported Request or Completer Abort (R397). -/
def execAtsCompletionTimeout (pasid page : Nat) (s : State) : Host.Outcome State Fault Refusal :=
  due "ATS_COMPLETION_TIMEOUT" (match s.mergeOf pasid page with
    | some m => if m.st == .ats then some (orderGroups (failPage s pasid page)) else none
    | none => none)

/-! ### Page requests -/

/-- Requests outstanding (R398). -/
def State.outstanding (s : State) : Nat := ((s.groups.filter (fun g => g.index.isSome)).map (fun g => g.pages.length)).sum
/-- The first free group index at or after `i` modulo 512 (R399). -/
def freeIndex (s : State) (i : Nat) : Nat :=
  ((List.range 512).map (fun k => (i + k) % 512)).find? (fun k => !s.groups.any (fun g => g.index == some k)) |>.getD (i % 512)
/-- The unsent groups that are formed, oldest first; what is left of one comes before those formed later (R399). -/
def readyGroups (s : State) : List Group := s.groups.filter (fun g => g.index.isNone && groupReady s g)
/-- PAGE_REQUEST_GROUP_SEND: the oldest group, or as much of it as the whole allowance, when the allowance covers it (R398,
R399). -/
def execPageRequestGroupSend (s : State) : Host.Outcome State Fault Refusal :=
  due "PAGE_REQUEST_GROUP_SEND" (match readyGroups s with
    | [] => none
    | g :: _ =>
      let n := min g.pages.length s.dev.allowance
      if s.priStopped || decide (s.dev.allowance < s.outstanding + n) then none
      else
        let ix := freeIndex s (s.dev.groupIx + 1)
        let now : Group := { g with index := some ix, pages := g.pages.take n }
        let rest := g.pages.drop n
        let t := s.modPart g.part (fun q => { q with outreq := q.outreq + n, groups := q.groups + 1 })
        let groups := s.groups.flatMap (fun h => if h == g then now :: (if rest.isEmpty then [] else [{ g with pages := rest, rest := true }]) else [h])
        some { t with
          groups := groups, dev := { t.dev with groupIx := ix }, sent := t.sent ++ [.group ix now.pages] })
/-- The group of an index answered: its requests are no longer outstanding. -/
def answerGroup (s : State) (ix : Nat) (f : State → Group → State) : Option State :=
  (s.groups.find? (fun g => g.index == some ix)).map (fun g =>
    let s := { s with groups := s.groups.filter (fun h => h.index != some ix) }
    f (s.modPart g.part (fun q => { q with outreq := q.outreq - g.pages.length })) g)
/-- PRG_RESPONSE_SUCCESS: every page of the group is asked for again (R400). -/
def execPrgResponseSuccess (group : Nat) (s : State) : Host.Outcome State Fault Refusal :=
  due "PRG_RESPONSE_SUCCESS" (answerGroup s group (fun s g => g.pages.foldl (fun s e =>
    if (s.mergeOf e.1 e.2.1).isNone then s else
    let s := s.modMerge e.1 e.2.1 (fun m => { m with st := .ats, tries := m.tries + 1, since := s.clk.toNat })
    let t := s.modPart g.part (fun q => { q with atsreq := q.atsreq + 1 })
    { t with sent := t.sent ++ [.ats e.1 e.2.1 e.2.2] }) s))
/-- Every page of a group unrecoverable (R400). -/
def failGroup (s : State) (g : Group) : State := orderGroups (g.pages.foldl (fun s e => failPage s e.1 e.2.1) s)
/-- PRG_RESPONSE_INVALID_REQUEST (R400). -/
def execPrgResponseInvalidRequest (group : Nat) (s : State) : Host.Outcome State Fault Refusal :=
  due "PRG_RESPONSE_INVALID_REQUEST" (answerGroup s group failGroup)
/-- PRG_RESPONSE_FAILURE: no page request is sent until RFAIL is cleared; that of partition 0 stands for what belongs to no partition
(R400, R401; log 107). -/
def execPrgResponseFailure (group : Nat) (s : State) : Host.Outcome State Fault Refusal :=
  due "PRG_RESPONSE_FAILURE" (answerGroup s group (fun s g => (failGroup s g).modPart (if g.part = noPart then 0 else g.part) (fun q => { q with rfail := true })))
/-- ATS_INVALIDATE_REQUEST: the entries dropped, but for pinned ones, which stay in their engine's cache until it is acknowledged; that is
once no access or pin uses the pages; no more than 32 are outstanding (R403, R422). -/
def execAtsInvalidateRequest (pasid base size : Nat) (s : State) : Host.Outcome State Fault Refusal :=
  let hit := fun (t : Tlb) => t.pasid == pasid && decide (t.base < base + size) && decide (base < t.base + t.size)
  due "ATS_INVALIDATE_REQUEST" (if 32 ≤ s.invals.length then none
    else some (ackInvals { s with tlbs := s.tlbs.filter (fun t => !hit t || s.pins t), invals := s.invals ++ [⟨pasid, base, size⟩] }))

/-! ### Aborted regions -/

/-- The waiters of a pack: its slots and its operations. -/
def packWaiters (s : State) (p : Nat) : List Nat :=
  waiterOf p 0 :: waiterOf p 1 :: (s.ops.filter (fun o => o.pack == some p && !o.done)).map (fun o => opWaiter o.id)
/-- REGION_REQUEUE: the loads are done and the faulted pages resolved; the pack is ready at the restart point, where XLATE waits if a
page is unrecoverable (R406). -/
def execRegionRequeue (p : Nat) (s : State) : Host.Outcome State Fault Refusal :=
  due "REGION_REQUEUE" (
    let x := s.pack p
    match x.region with
    | none => none
    | some r =>
      let who := packWaiters s p
      let busy := s.ops.any (fun o => o.pack == some p && !o.done && o.k == some .ld) ||
        s.merges.any (fun m => (m.st == .ats || m.st == .pri) && m.waiters.any who.contains)
      if !r.aborted || x.retired || x.stopped || busy then none
      else
        let bad := [0, 1].flatMap (fun k => answers s k p r.wants)
        let late := match lowFail bad with
          | some a => if x.pending.any (fun e => e.cause == cXLATE) then [] else [{ cause := cXLATE, info := xlateInfo a.1 a.2, lanes := r.mask }]
          | none => []
        let s := (s.leaveMerge (waiterOf p 0)).leaveMerge (waiterOf p 1)
        some (s.modPack p (fun x => { x with region := none, lead := { x.lead with stall := none }, pending := x.pending ++ late })))

end Sys2Proof.Machine
end

