-- ==== Sys2Proof/Machine/Device.lean ====
section
/-!
DEFINITION. The host's and the peers' accesses to device memory (R133, R410, R423), bring-up and attestation (R427 to R429), links
(R424 to R426), health (R407, R430), snapshots (R431), power (R433, R434).
-/
namespace Sys2Proof.Machine
open Sys2Proof

/-! ### Accesses from outside -/

/-- The physical keys of `n` bytes from a device physical address, `none` where one lies outside the table "Stack ranges" (R410,
R423). -/
def dpaRange (s : State) (d n : Nat) : Option (List Nat) := (List.range n).mapM (fun i => s.dpa (d + i))
/-- Whether the part has come up (R427). -/
def State.up (s : State) : Bool := bitsAt s.dev.bootstat 0 4 == 5
/-- What a configuration request of the host sets, which gets Retry Status until the part has come up (R427). -/
def configure (s : State) (f : DevRegs → DevRegs) : State := if s.up then { s with dev := f s.dev } else s
/-- Something sent to the outside. -/
def State.send (s : State) (m : Sent) : State := { s with sent := s.sent ++ [m] }
/-- An access from outside to a range of the aperture: Unsupported Request where there is none, held while a line is closed (R126,
R423, R427). -/
def outsideAccess (name : String) (s : State) (d n : Nat) (f : State → List Nat → State) : Host.Outcome State Fault Refusal :=
  due name (match dpaRange s d n with
    | none => some (s.send .unsupported)
    | some ks =>
      if !s.up then some (s.send .unsupported)
      else
        let foot := ks.map (fun k => (k, 1))
        if anyClosed s foot then none else some (f (closeWindows s (linesOf foot)) ks))
/-- HOST_BAR2_READ (R423). -/
def execHostBar2Read (d n : Nat) (s : State) : Host.Outcome State Fault Refusal :=
  outsideAccess "HOST_BAR2_READ" s d n (fun s ks => s.send (.readData (ks.map (memByte s))))
/-- HOST_BAR2_WRITE: registers at the L2 with no owner (R133, R423). -/
def execHostBar2Write (d : Nat) (bytes : List (BitVec 8)) (s : State) : Host.Outcome State Fault Refusal :=
  outsideAccess "HOST_BAR2_WRITE" s d bytes.length (fun s ks => registerBytes s none false (ks.zip bytes))
/-- A peer's atomic at its L2 slice: the old value goes back (R116, R117, R133). -/
def peerAtom (s : State) (ks : List Nat) (op : Option AtomOp) (v cmp : Nat) : State :=
  let n := ks.length
  let ph := ks.headD 0
  let old := memNat s ph n
  let s := match atomWrite op n old v cmp with
    | some new => registerBytes s none false ((leBytes new n).zipIdx.map (fun (e : BitVec 8 × Nat) => (ph + e.2, e.1)))
    | none => (wordsOf (ph, n)).foldl (fun s w => setOwner s w none) s
  s.send (.readData (leBytes old n))
/-- A peer's add, minimum or maximum at its L2 slice; an add into an open window of a `.det` launch is held, counted and reported
(R366, R426). -/
def peerAdd (s : State) (u : AddU) : State :=
  let line := lineOf u.ph
  let s := match mapGet s.mem.windows line with
    | none => applyAdd s u
    | some w =>
      if w.det && u.op == .add then
        let s := { s with mem := { s.mem with windows := mapPut s.mem.windows line { w with intr := w.intr ++ [u] } } }
        let s := s.modPart (s.launch w.launch).part (fun q => { q with intrude := if q.intrude = 0xFFFFFFFF then q.intrude else q.intrude + 1 })
        produce s 0 (mkRecord 0 (BitVec.ofNat 64 (128 * line)) 7 4 255)
      else applyAdd (closeWindow s line) u
  (wordsOf (u.ph, u.fmt.bytes)).foldl (fun s w => setOwner s w none) s
/-- PEER_ACCESS_IN: a peer's access performed here, where the rules of R115 to R117 apply (R133, R134, R426). -/
def execPeerAccessIn (acc : PeerAccess) (s : State) : Host.Outcome State Fault Refusal :=
  match acc with
  | .load d n => outsideAccess "PEER_ACCESS_IN" s d n (fun s ks => s.send (.readData (ks.map (memByte s))))
  | .store d bytes => outsideAccess "PEER_ACCESS_IN" s d bytes.length (fun s ks => registerBytes s none false (ks.zip bytes))
  | .atomic op d n v => outsideAccess "PEER_ACCESS_IN" s d n (fun s ks => peerAtom s ks (some op) v.toNat 0)
  | .cas d n cmp v => outsideAccess "PEER_ACCESS_IN" s d n (fun s ks => peerAtom s ks none v.toNat cmp.toNat)
  | .fatom op fmt d v =>
    let f := fatFmt fmt
    due "PEER_ACCESS_IN" (match dpaRange s d f.bytes with
      | none => some (s.send .unsupported)
      | some ks =>
        if !s.up then some (s.send .unsupported)
        else if anyClosed s (ks.map (fun k => (k, 1))) || recordsFull s 0 then none
        else some (peerAdd s ⟨0, 0, 0, ks.headD 0, f, op, if f = .f32 then v else rne32 (f.ff.read (v.toNat % 65536))⟩))

/-! ### Bring-up -/

/-- Whether the signature of the image in a slot holds under the public key whose digest is fused (R427). -/
def signatureOk (b : Bool) : Bool :=
  ofBytes (sha512 (leBytes (Config.fwKey b).toNat 32)) == Config.fusedDigest.toNat && edVerify (Config.fwKey b) (Config.firmware b) (Config.fwSig b)
/-- What the checks of boot step 1 come to: the slot that runs, and ERR (R427). -/
def verify : Option Bool × Nat :=
  let svnOk := fun (b : Bool) => decide (Config.fusedSvn.toNat ≤ (Config.fwSvn b).toNat)
  let ok := fun (b : Bool) => signatureOk b && svnOk b
  if ok false then (some false, 0)
  else if ok true then (some true, if signatureOk false then 2 else 1)
  else (none, 3)
/-- BOOTSTAT (R427). -/
def bootstatOf (slot : Option Bool) (err st : Nat) : W64 :=
  BitVec.ofNat 64 ((match slot with
    | some b => field (Config.fwVersion b).toNat 48 16 + field (Config.fwSvn b).toNat 32 16 + (if b then 16 else 0)
    | none => 0) + field err 8 8 + st)
/-- DEFSIG (R428). -/
def defsigOf (clusten : BitVec 72) (badxa : BitVec 4096) : W64 :=
  BitVec.ofNat 64 (ofBytes ((sha512 (leBytes clusten.toNat 9 ++ leBytes badxa.toNat 512)).take 8))
/-- LINKSTAT of a port with a state and the peer that its training has found (R424). -/
def linkWord (old : W64) (st : Nat) (peer : BitVec 8) : W64 := putBits (putBits old 0 2 st) 56 8 peer.toNat
/-- A reason recorded in HEALTH (R430). -/
def DevRegs.blame (d : DevRegs) (r : Nat) : DevRegs :=
  { d with replace := true, reason := if d.reason = 0 then BitVec.ofNat 7 r else d.reason,
           reasons := d.reasons ||| (1#8 <<< (r - 1)) }
/-- A change of REPLACE, REASONS or SPARES raises HVEC (R430). -/
def withHealth (s : State) (d : DevRegs) : State :=
  let t := { s with dev := d }
  if d.replace == s.dev.replace && d.reasons == s.dev.reasons && d.spares == s.dev.spares then t else t.sendVec d.hvec.toNat
/-- Boot step 4, run number `n`: the ports trained, each with its peer's identity or FAILED (R424, R427). -/
def trainLinks (n : Nat) (d : DevRegs) : DevRegs :=
  (List.range 12).foldl (fun d i =>
    if Config.linkTrains n i then { d with linkstat := modNth d.linkstat i (fun w => linkWord w 2 (Config.linkPeer n i)) }
    else ({ d with linkstat := modNth d.linkstat i (fun w => putBits w 0 2 3) } : DevRegs).blame 4) d
/-- A failed Cellar unit: one of its stack's four spares takes its slices; with none left it stays failed, reason 2 (R420, R430). -/
def spareUnit (d : DevRegs) (unit : Nat) : DevRegs :=
  let k := unit / 32
  if nth 0 d.sparesUsed k < 4 then { d with sparesUsed := modNth d.sparesUsed k (fun n => n + 1), spares := d.spares + 1 }
  else ({ d with badUnits := d.badUnits ++ [unit] } : DevRegs).blame 2
/-- STATE of BOOTSTAT set, ERR where a step fails (R427). -/
def bootState (d : DevRegs) (st : Nat) : DevRegs := { d with bootstat := putBits d.bootstat 0 4 st }
def bootFails (d : DevRegs) (err : Nat) : DevRegs := { d with bootstat := putBits (putBits d.bootstat 0 4 15) 8 8 err }
/-- The boot step that STATE names, in boot run `n`, and the next STATE: VERIFY, DEFECT, DRAM, LINK (R427, R428, R430). -/
def bootStep (n : Nat) (d : DevRegs) : DevRegs :=
  match bitsAt d.bootstat 0 4 with
  | 1 => (match verify with
    | (none, err) => { d with bootstat := bootstatOf none err 15 }
    | (some b, err) => { d with bootstat := bootstatOf (some b) err 2 })
  | 2 =>
    if !Config.fusesOk then bootFails d 5
    else
      let c := Config.clustenOf d.repair
      bootState { d with clusten := c, badxa := Config.badxa c, defsig := defsigOf c (Config.badxa c) } 3
  | 3 =>
    if !Config.dramOk then bootFails d 4
    else bootState (((List.range 256).filter (fun u => d.deadUnits.contains u || Config.cellarFails n u)).foldl spareUnit d) 4
  | 4 => bootState (trainLinks n d) 5
  | _ => d
/-- Whether the boot processor is at one of its steps. -/
def DevRegs.booting (d : DevRegs) : Bool := decide (1 ≤ bitsAt d.bootstat 0 4) && decide (bitsAt d.bootstat 0 4 ≤ 4)
/-- One boot step, where the boot processor runs: step 3 leaves every DRAM word zero; what it changes in HEALTH raises HVEC (R427, R430). -/
def bootNext (s : State) : State :=
  if !s.dev.booting then s
  else
    let m := if bitsAt s.dev.bootstat 0 4 = 3 then { s.mem with ram := s.mem.ram.filter (fun c => isBus c.1), l2 := [], poison := [] } else s.mem
    withHealth { s with mem := m, fresh := s.fresh + 1 } (bootStep s.fresh s.dev)
/-- POWER_ON_RESET: the machine as `State.reset` has it, with the boot ROM run and the boot steps to come, one a clock; memory outside the
device and the repair record stay (R427, R430; log 1). -/
def execPowerOnReset (s : State) : Host.Outcome State Fault Refusal :=
  let r := State.reset
  .next { r with
    mem := { r.mem with ram := s.mem.ram.filter (fun c => isBus c.1) },
    dev := bootState { r.dev with repair := s.dev.repair, deadUnits := s.dev.deadUnits } 1,
    fresh := s.fresh, nextOp := s.nextOp, agenda := s.agenda, sent := s.sent }
/-- ATTCMD_WRITE (R429). -/
def execAttcmdWrite (v : BitVec 64) (s : State) : Host.Outcome State Fault Refusal :=
  .next (if s.dev.attBusy then s else { s with dev := { s.dev with attBusy := true, attAddr := bitsAt v 0 57 } })
/-- The slot of the running firmware. -/
def State.bootSlot (s : State) : Bool := s.dev.bootstat.getLsbD 4
/-- Bytes 0 to 191 of the report (R429). -/
def reportBody (s : State) (nonce : List (BitVec 8)) : List (BitVec 8) :=
  nonce ++ sha512 (Config.firmware s.bootSlot) ++ leBytes s.dev.defsig.toNat 8 ++ leBytes s.dev.clusten.toNat 9 ++
  List.replicate 7 0 ++ leBytes s.health.toNat 8 ++ leBytes s.dev.bootstat.toNat 8 ++ List.replicate 24 0 ++
  leBytes (edPublic Config.seed).toNat 32
/-- ATTESTATION_REPORT: the nonce read and the report written at ADDR, used untranslated; BUSY clears (R429). -/
def execAttestationReport (s : State) : Host.Outcome State Fault Refusal :=
  due "ATTESTATION_REPORT" (
    let a := s.dev.attAddr
    let key := fun i => s.busKey (a + i)
    let foot := (List.range 256).map (fun i => (key i, 1))
    if !s.dev.attBusy || anyClosed s foot then none
    else
      let s := closeWindows s (linesOf foot)
      let body := reportBody s ((List.range 32).map (fun i => memByte s (key i)))
      let all := body ++ leBytes (edSign Config.seed body).toNat 64
      let t := registerBytes s none false (all.zipIdx.map (fun e => (key e.2, e.1)))
      some { t with dev := { t.dev with attBusy := false } })

/-! ### Links -/

/-- What a port that leaves UP sends back: its outstanding requests, to be replayed on the ports that then serve their pages (R426). -/
def sendBack (s t : State) (port : Nat) : State :=
  let old := s.relayed
  let back := (onPort s port).filter (fun e => !old.contains e)
  { t with dev := { t.dev with relays := old ++ back },
           sent := t.sent ++ back.filterMap (fun e => (t.portOf e.win e.page).map (fun k => Sent.peer k (4096 * e.page))) }
/-- LINK_PORT_STATE_CHANGE: U follows LINKSTAT; a port that leaves UP has its outstanding requests replayed; a failed port is reason 4; a
port that comes UP has found its peer (R424, R426, R430). -/
def execLinkPortStateChange (port st : Nat) (s : State) : Host.Outcome State Fault Refusal :=
  due "LINK_PORT_STATE_CHANGE" (if 12 ≤ port ∨ 4 ≤ st then none
    else
      let old := nth 0 s.dev.linkstat port
      let up := bitsAt old 0 2 == 2
      let w := if st == 2 && !up then linkWord old st (Config.linkPeer s.fresh port) else putBits old 0 2 st
      let d := { s.dev with linkstat := modNth s.dev.linkstat port (fun _ => w) }
      let t := withHealth { s with fresh := s.fresh + 1 } (if st = 3 then d.blame 4 else d)
      some (if up && st != 2 then sendBack s t port else t))
/-- LINK_FLIT_REPLAY: counted, saturating; timing only (R424). -/
def execLinkFlitReplay (port : Nat) (s : State) : Host.Outcome State Fault Refusal :=
  due "LINK_FLIT_REPLAY" (if 12 ≤ port then none
    else some { s with dev := { s.dev with linkstat := modNth s.dev.linkstat port (fun w => putBits w 32 16 (min 65535 (bitsAt w 32 16 + 1))) } })

/-! ### Health -/

/-- UNCORRECTABLE_ERROR: a word of the L2 or DRAM poisoned and counted (R407, R430). -/
def execUncorrectableError (word : Nat) (s : State) : Host.Outcome State Fault Refusal :=
  due "UNCORRECTABLE_ERROR" (if isBus (4 * word) then none
    else
      let t := setPoison s word true
      some { t with dev := { t.dev with uecount := min 255 (t.dev.uecount + 1) } })
/-- CLK cycles of an hour (R1). -/
def hour : Nat := 5400000000000
/-- CORRECTABLE_ERROR: corrected and counted; reason 6 above 2^20 in an hour (R407, R430). -/
def execCorrectableError (s : State) : Host.Outcome State Fault Refusal :=
  let ts := s.clk.toNat :: s.dev.softTimes.filter (fun t => decide (s.clk.toNat < t + hour))
  let d := { s.dev with cecount := min 0xFFFFFFFF (s.dev.cecount + 1), softTimes := ts }
  .next (withHealth s (if 2 ^ 20 < ts.length then d.blame 6 else d))
/-- The first pack of a launch that runs on a cluster. -/
def packOn (s : State) (launch cluster : Nat) : Option Nat :=
  s.packs.findIdx? (fun x => x.launch == launch && x.core / 4 == cluster && !x.retired)
/-- The physical cluster of a logical one: the enabled clusters are numbered in ascending physical order (R428). -/
def physCluster (clusten : BitVec 72) (logical : Nat) : Nat := nth 0 ((List.range 72).filter clusten.getLsbD) logical
/-- CLUSTER_FAILURE: fenced, and in the repair record for the next reset; its running launches end as HALT ends them with CAUSE 0x1A
(R383, R430). -/
def execClusterFailure (cluster : Nat) (s : State) : Host.Outcome State Fault Refusal :=
  due "CLUSTER_FAILURE" (if 64 ≤ cluster || s.dev.fenced.contains cluster then none
    else
      let t := withHealth s ({ s.dev with fenced := s.dev.fenced ++ [cluster], repair := s.dev.repair ||| (1#72 <<< physCluster s.dev.clusten cluster) }.blame 1)
      some (settleEnded ((List.range t.launches.length).foldl (fun t i =>
        match packOn t i cluster with
        | some p => if (t.launch i).stat == .running
            then endLaunch (t.modPack p (fun x => { x with pcause := BitVec.ofNat 64 cMEMERR })) p false none else t
        | none => t) t)))
/-- CELLAR_UNIT_FAILURE: one of the stack's four spares takes the unit's slices; with none left, reason 2 (R420, R430). -/
def execCellarUnitFailure (unit : Nat) (s : State) : Host.Outcome State Fault Refusal :=
  due "CELLAR_UNIT_FAILURE" (if 256 ≤ unit || s.dev.badUnits.contains unit then none
    else some (withHealth s (spareUnit { s.dev with deadUnits := s.dev.deadUnits ++ [unit] } unit)))
/-- DRAM_ROW_FAILURE: remapped; reason 3 where no repair row is left (R430). -/
def execDramRowFailure (spare : Bool) (s : State) : Host.Outcome State Fault Refusal :=
  .next (if spare then s else withHealth s (s.dev.blame 3))
/-- L2_WAY_FAILURE: a way disabled, reason 5 (R84, R430). -/
def execL2WayFailure (s : State) : Host.Outcome State Fault Refusal :=
  .next (trimL2 (withHealth s ({ s.dev with waysOff := s.dev.waysOff + 1 }.blame 5)))

/-! ### Snapshots -/

/-- SNAP_IN_EDGE (R431). -/
def execSnapInEdge (s : State) : Host.Outcome State Fault Refusal := .next (snapTrigger s 2)
/-- SNAPTRIG_WRITE: a 1 fires the trigger (R431). -/
def execSnaptrigWrite (v : BitVec 64) (s : State) : Host.Outcome State Fault Refusal :=
  .next (if v.getLsbD 0 && s.answers then snapTrigger s 4 else s)
/-- SNAPCTL_FULL_CLEAR (R431). -/
def execSnapctlFullClear (s : State) : Host.Outcome State Fault Refusal := .next (if s.answers then clearFull s else s)
/-- SNAP_OUT_RELEASE: SNAP_OUT_N high again after 1 microsecond (R431). -/
def execSnapOutRelease (s : State) : Host.Outcome State Fault Refusal :=
  due "SNAP_OUT_RELEASE" (match s.dev.snapLow with
    | some t => if t + 1500 ≤ s.clk.toNat then some ({ s with dev := { s.dev with snapLow := none } }.send (.snapOut false)) else none
    | none => none)

/-! ### Power -/

/-- Whether the power or a temperature calls for throttling (R433, R434). -/
def DevRegs.hot (d : DevRegs) : Bool :=
  decide (1000 * d.plimit.toNat < d.pwr.toNat) || decide (1600 ≤ bitsAt d.temp 0 16) || decide (1600 ≤ bitsAt d.temp 16 16) ||
  decide (1520 ≤ bitsAt d.temp 32 16)
/-- Telemetry or the limit changed; the time counts from when the condition last held (R434). -/
def sense (s : State) (f : DevRegs → DevRegs) : State :=
  let d := f s.dev
  { s with dev := { d with hotAt := if s.dev.hot || d.hot then s.clk.toNat else d.hotAt } }
/-- PLIMIT_WRITE: clamped to 600 to 2,000 W (R433). -/
def execPlimitWrite (v : BitVec 64) (s : State) : Host.Outcome State Fault Refusal :=
  .next (if s.answers then sense s (fun d => { d with plimit := BitVec.ofNat 16 (max 600 (min 2000 (bitsAt v 0 16))) }) else s)
/-- THROTTLE_STEP_DOWN: each microsecond CLKN lower by 1 and PERMBANKS lower, by how much is free (R418, R434; log 4). -/
def execThrottleStepDown (stack : Nat) (s : State) : Host.Outcome State Fault Refusal :=
  due "THROTTLE_STEP_DOWN" (
    let d := s.dev
    if !d.hot || decide (s.clk.toNat < d.thrAt + 1500) then none
    else some { s with
      fresh := s.fresh + 1,
      dev := { d with
        thrAt := s.clk.toNat, clkn := max 4 (d.clkn - 1),
        perm := modNth d.perm stack (fun p => 8 + Config.freeBanks s.fresh % max 1 (p - 8)) } })
/-- THROTTLE_RESTORE: CLKN and PERMBANKS rise again once the condition has been clear for 1 ms (R434; log 4). -/
def execThrottleRestore (stack : Nat) (s : State) : Host.Outcome State Fault Refusal :=
  due "THROTTLE_RESTORE" (
    let d := s.dev
    if d.hot || decide (s.clk.toNat < d.hotAt + 1500000) || (d.clkn == 16 && nth 32 d.perm stack == 32) then none
    else some { s with
      fresh := s.fresh + 1,
      dev := { d with
        clkn := min 16 (d.clkn + 1), perm := modNth d.perm stack (fun p => min 32 (p + 1 + Config.freeBanks s.fresh % max 1 (32 - p))) } })
/-- Whether a die or a stack has reached the thermal trip (R434). -/
def DevRegs.burning (d : DevRegs) : Bool :=
  decide (1760 ≤ bitsAt d.temp 0 16) || decide (1760 ≤ bitsAt d.temp 16 16) || decide (1680 ≤ bitsAt d.temp 32 16)
/-- THERMAL_TRIP: every launch ends with status FAULT and FAULT 0; no block is placed until reset (R430, R434). -/
def execThermalTrip (s : State) : Host.Outcome State Fault Refusal :=
  due "THERMAL_TRIP" (if !s.dev.burning || s.dev.tripped then none
    else
      let t := withHealth s ({ s.dev with tripped := true }.blame 7)
      let gone := fun (l : Launch) => l.stat != .retired
      let t := t.quitMerge (fun w => decide (w < 2 ^ 32) && gone (t.launchOf (w / 2)))
      let t := { t with
        packs := t.packs.map (fun x => if gone (t.launch x.launch) then x.stopAll else x),
        launches := t.launches.map (fun l => if gone l then { l with stat := .ending, failed := true, faults := 0, summary := 0 } else l) }
      some (settle t))
/-- Counting of throttled CLK cycles (R433). -/
def countThrottled (s : State) (n : Nat) : State :=
  if s.dev.clkn < 16 ∨ s.minBanks < 32 then
    { s with dev := { s.dev with thrclk := BitVec.ofNat 32 (min 0xFFFFFFFF (s.dev.thrclk.toNat + n)) } }
  else s
/-- CLK advances, and what counts it: throttled cycles, and since when each queue's head command has been able to start (R1, R349,
R433). -/
def passClocks (s : State) (n : Nat) : State := markQueues (countThrottled { s with clk := s.clk + BitVec.ofNat 64 n } n)
/-- The allowances that the device accepts (R398). -/
def allowanceOk (n : Nat) : Bool := decide (1 ≤ n) && decide (n ≤ 512)

end Sys2Proof.Machine
end

