-- ==== Sys2Proof/Machine/Agenda.lean ====
section
/-!
DEFINITION. What may be done next when the agenda is empty: the units' steps and the issue turns that the state makes possible, taken
in an order that turns with CLK, so that each comes first in its turn (log 1). What the outside does stands in the agenda alone.
-/
namespace Sys2Proof.Machine
open Sys2Proof

/-- Steps of a slot. -/
def slotActs (s : State) (p k : Nat) : List Act :=
  let sl := (s.pack p).slot k
  if sl.path.isNone then []
  else if sl.clause.isNone then [.unit (.clauseHeader p k), .unit (.rotationBlockTimeout p k)]
  else [.issue p k, .unit (.rotationBlockTimeout p k)]
/-- Steps of a pack. -/
def packActs (s : State) (p : Nat) : List Act :=
  let x := s.pack p
  if x.retired || x.stopped then []
  else slotActs s p 0 ++ slotActs s p 1 ++ [.unit (.forcedIssue p), .unit (.regionRequeue p)]
/-- Steps that an outstanding operation may take. -/
def opActs (s : State) (o : Op) : List Act :=
  let i := o.id
  let bytes := fun (bs : List (Nat × BitVec 8)) =>
    (((bs.filter (fun b => !isBus b.1)).map (fun b => b.1 / 4)).eraseDups.map (fun w => Instr.storeRegister i w [])) ++
      [Instr.hostFlushReadCompletion i, Instr.peerAcknowledge i]
  let load := [Instr.loadDataReturn i [], Instr.hostPeerLoadCompletion i]
  let engine := match o.pack with | some p => (s.pack p).core / 4 | none => 0
  let mx := [Instr.matrixPassGrant engine, Instr.matrixEntryAged i]
  ((match o.body with
    | .load _ _ _ _ _ _ => load
    | .grid _ _ _ _ _ => load
    | .hfind _ _ _ => load
    | .nbr _ _ _ => load
    | .store bs _ => bytes bs
    | .post bs => bytes bs
    | .atom _ _ _ ls => ls.flatMap (fun (l : AtomLane) => [Instr.atomicPerform i l.lane, Instr.hostAtomicopCompletion i l.lane true]) ++ [Instr.peerAcknowledge i]
    | .adds us _ _ _ => (List.range us.length).map (fun k => Instr.splatAddArrival i k) ++ [Instr.peerAcknowledge i]
    | .cmo _ _ _ => [Instr.cmoComplete i]
    | .gdld _ _ _ _ => [Instr.gdldDataArrival i]
    | .pref _ _ => load
    | .hins _ ls _ => ls.map (fun (l : GLane) => Instr.hinsBucketStep i l.lane)
    | .hframe _ _ _ _ _ _ => [Instr.hframeApply i]
    | .copy c => [Instr.guardSlotRead i, Instr.copyComplete i, Instr.promiseCheck i] ++ c.parts.map (fun (q : SeqPart) => Instr.cpyrPartApply i q.region)
    | .mma _ => mx ++ [Instr.mmaComplete i]
    | .mate _ => []
    | .mzero _ _ _ => mx ++ [Instr.tileRowComplete i]
    | .mlda _ _ _ _ _ => mx ++ [Instr.tileRowComplete i]
    | .msta _ _ _ _ _ => mx ++ [Instr.tileRowComplete i]
    | .wbld _ _ _ => mx ++ [Instr.wbldComplete i]
    | .xprog _ _ _ _ _ _ => [Instr.xprogDone i]
    | .xmv _ _ _ _ _ _ => [Instr.xmvPassDone i]
    | .xcal _ _ => [Instr.xcalDone i]
    | .xref _ _ _ => [Instr.xrefDone i]
    | .tbind _ _ _ => [Instr.tbindCopyDone i]
    | .tq _ _ _ => [Instr.tqDone i]
    | .job j => [Instr.guardSlotRead i, Instr.cellarJobStart i, Instr.cellarDot i, Instr.cellarSegsum i, Instr.cellarAdamw i, Instr.cellarFill i,
        Instr.cellarJobComplete i] ++ j.parts.map (fun (q : SeqPart) => Instr.cellarRapply i q.region)).map Act.unit)
/-- Steps of a launch. -/
def launchActs (s : State) (i : Nat) : List Act :=
  let l := s.launch i
  let empty : State := { s with blocks := [] }
  let place := match nextCores s i with
    | some cs => [Instr.blockPlace i (cs.headD 0), Instr.caravanPlace i cs]
    | none => (match nextCores empty i with
      | some cs => [Instr.blockWaitTimeout i cs, Instr.caravanWaitTimeout i cs]
      | none => [])
  (if l.stat == .window then [Act.unit (.windowFreeAdmit i)] else []) ++ (if wantsPlace s i then place.map Act.unit else [])
/-- Steps of the command processor, the rings and the replays. -/
def commandActs (s : State) : List Act :=
  let rings := (List.range 16).flatMap (fun r =>
    (if s.records.any (fun e => e.ring == r) then [Act.unit (.eventRecordWrite r)] else []) ++
    (if (s.ring r).first.isSome then [Act.unit (.ringCoalesceTimeout r)] else []))
  let queues := (match nextQueue s with | some q => [Act.unit (.commandNop q), .unit (.commandLaunch q), .unit (.commandReplay q)] | none => []) ++
    ((List.range 64).filter (fun q => (s.queue q).since.isSome)).map (fun q => Act.unit (.queueStarvationTimeout q))
  let nodes := (List.range s.replays.length).flatMap (fun r =>
    if (s.replay r).started && !(s.replay r).finished then
      (List.range (s.replay r).nodes.length).flatMap (fun n => match (s.node r n).stat with
        | .ready => [Act.unit (.nodeKernel r n), .unit (.nodeCellar r n), .unit (.nodeCopy r n), .unit (.nodeHostwait r n), .unit (.nodeCond r n),
            .unit (.nodeEvent r n)]
        | .running => [Act.unit (.nodeComplete r n)]
        | .acted => [Act.unit (.nodeComplete r n)]
        | _ => [])
    else [])
  queues ++ nodes ++ rings
/-- Steps of the partitions, the power controller and the other units. -/
def deviceActs (s : State) : List Act :=
  let parts := (List.range 4).flatMap (fun q =>
    if (s.part q).state == 0 && !(s.part q).drain then []
    else [Act.unit (.partitionHalted q), .unit (.shadowSaveDone q), .unit (.drainDone q), .unit (.restoreDone q)])
  let cores := (s.mshr.rejected.map (fun r => (s.pack r.pack).core)).eraseDups.map (fun c => Act.unit (.mshrAgeHold c))
  let seqStacks := (s.seqs.map (fun e => e.2.1)).eraseDups.map (fun k => Act.unit (.sequenceEntryFree k))
  let power := if s.dev.hot then (List.range 8).map (fun k => Act.unit (.throttleStepDown k))
    else (List.range 8).filterMap (fun k => if s.dev.clkn < 16 ∨ nth 32 s.dev.perm k < 32 then some (Act.unit (.throttleRestore k)) else none)
  parts ++ cores ++ seqStacks ++ power ++ (if s.mshr.turned.isEmpty then [] else [Act.unit .mergeTableAgeHold]) ++
  (if s.groups.isEmpty then [] else [Act.unit .pageRequestGroupSend]) ++ (if s.dev.attBusy then [Act.unit .attestationReport] else []) ++
  (if s.dev.snapLow.isSome then [Act.unit .snapOutRelease] else []) ++ (if s.dev.burning then [Act.unit .thermalTrip] else [])
/-- A list turned so that element `n` modulo its length comes first. -/
def turnList {α : Type} (n : Nat) (l : List α) : List α := l.drop (n % l.length) ++ l.take (n % l.length)
/-- What happens of itself at a clock before anything else: the boot processor takes a step, the paths of a halting partition that
count as at a header go back to it, loads at a page that is known to fail end, the packs of an ending launch that have come to a header
or are blocked stop, a cause that is taken where a slot stands is taken once nothing comes before it, a late copy whose promise has passed
is checked, and a command at the head of its queue reads its guard slot, each at the first moment at which it can (R143, R153, R301,
R383, R387, R406, R427; log 110). -/
def dueNow (s : State) : State :=
  let after := fun (t : State) (r : Host.Outcome State Fault Refusal) => match r with | .next u => u | _ => t
  let s := stillHeld (stillRejected (settleEnded (failLoads (backToHeaders (bootNext s)))))
  let taken := fun (t : State) (p : Nat) => (s.pack p).pending.foldl (fun t e => match e.slot with
    | some k => if (t.pack p).pending.contains e then takeNow t p k e else t
    | none => t) t
  let s := ((List.range s.packs.length).filter (fun p => (s.pack p).pending.any (fun e => e.slot.isSome))).foldl taken s
  s.ops.foldl (fun t o => match o.body with
    | .copy c =>
      let t := if c.late && decide (c.promise < t.clk) then after t (execPromiseCheck o.id t) else t
      if c.held then after t (execGuardSlotRead o.id t) else t
    | .job j => if j.stage == .held && !j.discarded then after t (execGuardSlotRead o.id t) else t
    | _ => t) s
/-- The events at barriers that an act makes: in a `.det` launch the det order stands for the order of kinds and packs (R149, R291). -/
def barActsOf (s : State) : Act → List BarAct
  | .issue p k =>
    let one := fun (bar kind : Nat) => (s.together p).map (fun q => let x := s.pack q
      if (s.launchOf q).det then (⟨x.block, bar, 0, 0⟩ : BarAct) else ⟨x.block, bar, kind, x.pk⟩)
    (match fetchInstr s p k with
    | .ok (some (.binit _ d _)) => one d.toNat 0
    | .ok (some (.bjoin _ a)) => one a.toNat 1
    | .ok (some (.bleave _ a)) => one a.toNat 1
    | .ok (some (.barr _ a)) => one a.toNat 2
    | _ => [])
  | .unit i =>
    let one := fun (id : Nat) => match s.op id with
      | some o => (match o.pack, o.body with
        | some p, .copy c => [(⟨(s.pack p).block, c.bar, 3, (s.pack p).pk⟩ : BarAct)]
        | some p, .job j => (match j.bar with | some b => [⟨(s.pack p).block, b, 3, (s.pack p).pk⟩] | none => [])
        | _, _ => [])
      | none => []
    (match i with | .copyComplete id => one id | .guardSlotRead id => one id | .cellarJobComplete id => one id | _ => [])
  | _ => []
/-- Whether an act would come to a barrier out of the order of R291 among those of the present clock. -/
def outOfOrder (s : State) (a : Act) : Bool :=
  (barActsOf s a).any (fun e => s.barActs.any (fun d => d.block == e.block && d.bar == e.bar &&
    (decide (e.kind < d.kind) || (d.kind == e.kind && decide (e.pk < d.pk)))))
/-- The next clock, before anything that an act does in it (log 1). -/
def nextClock (s : State) : State := { dueNow (passClocks s 1) with barActs := [] }
/-- The state in which an act of the agenda is done, `rest` following it: in the present clock where the agenda puts it there and barriers
allow it, else in the next (R291; log 1). -/
def actState (s : State) (same : Bool) (a : Act) (rest : List Act) : State :=
  let t := if same && !outOfOrder s a then s else nextClock s
  { t with agenda := rest, barActs := t.barActs ++ barActsOf t a }
/-- What may be done next when the agenda is empty: after reset the boot processor's run, then whatever the state has (log 1, 9). -/
def dueActs (s : State) : List Act :=
  if bitsAt s.dev.bootstat 0 4 = 0 then [.unit .powerOnReset]
  else
    let all := (List.range s.packs.length).flatMap (packActs s) ++ (s.ops.filter (fun o => !o.done || o.pack.isNone)).flatMap (opActs s) ++
      (List.range s.launches.length).flatMap (launchActs s) ++ commandActs s ++ deviceActs s
    turnList s.clk.toNat all

end Sys2Proof.Machine
end

