-- ==== Sys2Proof/Machine/Dispatch.lean ====
section
/-!
DEFINITION. One arm per instruction and event: each a direct call of its meaning.
-/
namespace Sys2Proof.Machine
open Sys2Proof

/-- The meaning of an instruction or event. -/
def exec (i : Instr) (s : State) : Host.Outcome State Fault Refusal :=
  match i with
  | .bra g cnd tgt rcv => Sys2Proof.Machine.execBra g cnd tgt rcv s
  | .brc g cond cnd tgt => Sys2Proof.Machine.execBrc g cond cnd tgt s
  | .br4 g kind p0 t0 rcv p1 t1 p2 t2 p3 t3 => Sys2Proof.Machine.execBr4 g kind p0 t0 rcv p1 t1 p2 t2 p3 t3 s
  | .switch g val ncase kb rcv toff => Sys2Proof.Machine.execSwitch g val ncase kb rcv toff s
  | .call g tgt => Sys2Proof.Machine.execCall g tgt s
  | .callReg g sc => Sys2Proof.Machine.execCallReg g sc s
  | .ret g => Sys2Proof.Machine.execRet g s
  | .exit g => Sys2Proof.Machine.execExit g s
  | .nop g => Sys2Proof.Machine.execNop g s
  | .yield g => Sys2Proof.Machine.execYield g s
  | .slpt g a => Sys2Proof.Machine.execSlpt g a s
  | .waitk g k n => Sys2Proof.Machine.execWaitk g k n s
  | .trap g imm => Sys2Proof.Machine.execTrap g imm s
  | .gset g neg u d a => Sys2Proof.Machine.execGset g neg u d a s
  | .region g => Sys2Proof.Machine.execRegion g s
  | .dsync g => Sys2Proof.Machine.execDsync g s
  | .srd g d num => Sys2Proof.Machine.execSrd g d num s
  | .swr g num a => Sys2Proof.Machine.execSwr g num a s
  | .rft g => Sys2Proof.Machine.execRft g s
  | .psrd g d num => Sys2Proof.Machine.execPsrd g d num s
  | .pswr g num a => Sys2Proof.Machine.execPswr g num a s
  | .halt g => Sys2Proof.Machine.execHalt g s
  | .snap g => Sys2Proof.Machine.execSnap g s
  | .prft g => Sys2Proof.Machine.execPrft g s
  | .sadd g ty sat d a b => Sys2Proof.Machine.execSadd g ty sat d a b s
  | .ssub g ty sat d a b => Sys2Proof.Machine.execSsub g ty sat d a b s
  | .smul g ty sat d a b => Sys2Proof.Machine.execSmul g ty sat d a b s
  | .smulh g ty d a b => Sys2Proof.Machine.execSmulh g ty d a b s
  | .smad g ty sat d a b c => Sys2Proof.Machine.execSmad g ty sat d a b c s
  | .sand g ty d a b => Sys2Proof.Machine.execSand g ty d a b s
  | .sor g ty d a b => Sys2Proof.Machine.execSor g ty d a b s
  | .sxor g ty d a b => Sys2Proof.Machine.execSxor g ty d a b s
  | .sshl g ty d a b => Sys2Proof.Machine.execSshl g ty d a b s
  | .sshr g ty d a b => Sys2Proof.Machine.execSshr g ty d a b s
  | .ssar g ty d a b => Sys2Proof.Machine.execSsar g ty d a b s
  | .smin g ty d a b => Sys2Proof.Machine.execSmin g ty d a b s
  | .smax g ty d a b => Sys2Proof.Machine.execSmax g ty d a b s
  | .scmp g ty rel d a b => Sys2Proof.Machine.execScmp g ty rel d a b s
  | .ssel g ty d a b c => Sys2Proof.Machine.execSsel g ty d a b c s
  | .smov g ty d a => Sys2Proof.Machine.execSmov g ty d a s
  | .smovi g d imm => Sys2Proof.Machine.execSmovi g d imm s
  | .smovh g d a imm => Sys2Proof.Machine.execSmovh g d a imm s
  | .spop g ty d a => Sys2Proof.Machine.execSpop g ty d a s
  | .sclz g ty d a => Sys2Proof.Machine.execSclz g ty d a s
  | .sbfe g ty d a b => Sys2Proof.Machine.execSbfe g ty d a b s
  | .sbfi g ty d a b c => Sys2Proof.Machine.execSbfi g ty d a b c s
  | .sld g sx wd pol d m => Sys2Proof.Machine.execSld g sx wd pol d m s
  | .sst g wd pol d m => Sys2Proof.Machine.execSst g wd pol d m s
  | .pset g d a => Sys2Proof.Machine.execPset g d a s
  | .pand g na nb d a b => Sys2Proof.Machine.execPand g na nb d a b s
  | .por g na nb d a b => Sys2Proof.Machine.execPor g na nb d a b s
  | .pxor g na nb d a b => Sys2Proof.Machine.execPxor g na nb d a b s
  | .pnot g d a => Sys2Proof.Machine.execPnot g d a s
  | .pmov g na d a => Sys2Proof.Machine.execPmov g na d a s
  | .pany g na d a => Sys2Proof.Machine.execPany g na d a s
  | .qcmp g rel lin d a b => Sys2Proof.Machine.execQcmp g rel lin d a b s
  | .qand g rule d a b => Sys2Proof.Machine.execQand g rule d a b s
  | .qor g rule d a b => Sys2Proof.Machine.execQor g rule d a b s
  | .qnot g d a => Sys2Proof.Machine.execQnot g d a s
  | .qblend g d a b c => Sys2Proof.Machine.execQblend g d a b c s
  | .qdraw g stream d a => Sys2Proof.Machine.execQdraw g stream d a s
  | .qgrad g d a => Sys2Proof.Machine.execQgrad g d a s
  | .qmov g dir d a => Sys2Proof.Machine.execQmov g dir d a s
  | .qlin g op mask d a => Sys2Proof.Machine.execQlin g op mask d a s
  | .vadd g ty sat d a b => Sys2Proof.Machine.execVadd g ty sat d a b s
  | .vsub g ty sat d a b => Sys2Proof.Machine.execVsub g ty sat d a b s
  | .vmul g ty sat d a b => Sys2Proof.Machine.execVmul g ty sat d a b s
  | .vmulh g ty d a b => Sys2Proof.Machine.execVmulh g ty d a b s
  | .vmad g ty sat d a b c => Sys2Proof.Machine.execVmad g ty sat d a b c s
  | .vand g ty d a b => Sys2Proof.Machine.execVand g ty d a b s
  | .vor g ty d a b => Sys2Proof.Machine.execVor g ty d a b s
  | .vxor g ty d a b => Sys2Proof.Machine.execVxor g ty d a b s
  | .vnot g ty d a => Sys2Proof.Machine.execVnot g ty d a s
  | .vshl g ty d a b => Sys2Proof.Machine.execVshl g ty d a b s
  | .vshr g ty d a b => Sys2Proof.Machine.execVshr g ty d a b s
  | .vsar g ty d a b => Sys2Proof.Machine.execVsar g ty d a b s
  | .vmin g ty d a b => Sys2Proof.Machine.execVmin g ty d a b s
  | .vmax g ty d a b => Sys2Proof.Machine.execVmax g ty d a b s
  | .vabs g ty sat d a => Sys2Proof.Machine.execVabs g ty sat d a s
  | .vcmp g ty rel d a b => Sys2Proof.Machine.execVcmp g ty rel d a b s
  | .vsel g ty nc d a b c => Sys2Proof.Machine.execVsel g ty nc d a b c s
  | .vmov g ty d a => Sys2Proof.Machine.execVmov g ty d a s
  | .vmovi g d imm => Sys2Proof.Machine.execVmovi g d imm s
  | .vpop g ty d a => Sys2Proof.Machine.execVpop g ty d a s
  | .vclz g ty d a => Sys2Proof.Machine.execVclz g ty d a s
  | .vbfe g ty d a b => Sys2Proof.Machine.execVbfe g ty d a b s
  | .vbfi g ty d a b c => Sys2Proof.Machine.execVbfi g ty d a b c s
  | .fadd g rnd sat stream d a b => Sys2Proof.Machine.execFadd g rnd sat stream d a b s
  | .fsub g rnd sat stream d a b => Sys2Proof.Machine.execFsub g rnd sat stream d a b s
  | .fmul g rnd sat stream d a b => Sys2Proof.Machine.execFmul g rnd sat stream d a b s
  | .ffma g rnd sat stream d a b c => Sys2Proof.Machine.execFfma g rnd sat stream d a b c s
  | .fmin g d a b => Sys2Proof.Machine.execFmin g d a b s
  | .fmax g d a b => Sys2Proof.Machine.execFmax g d a b s
  | .fcmp g rel d a b => Sys2Proof.Machine.execFcmp g rel d a b s
  | .frcp g d a => Sys2Proof.Machine.execFrcp g d a s
  | .frsq g d a => Sys2Proof.Machine.execFrsq g d a s
  | .fsqrt g d a => Sys2Proof.Machine.execFsqrt g d a s
  | .fexp2 g d a => Sys2Proof.Machine.execFexp2 g d a s
  | .flog2 g d a => Sys2Proof.Machine.execFlog2 g d a s
  | .frnd g rnd d a => Sys2Proof.Machine.execFrnd g rnd d a s
  | .fclass g d a => Sys2Proof.Machine.execFclass g d a s
  | .hfma2 g rnd sat stream fmt d a b c => Sys2Proof.Machine.execHfma2 g rnd sat stream fmt d a b c s
  | .cvt g rnd sat stream df sf spos d a => Sys2Proof.Machine.execCvt g rnd sat stream df sf spos d a s
  | .cvtpk g rnd sat stream df sf d a => Sys2Proof.Machine.execCvtpk g rnd sat stream df sf d a s
  | .cvtmx g rnd stream df sb d a c => Sys2Proof.Machine.execCvtmx g rnd stream df sb d a c s
  | .cvtl6 g rnd stream b16 sb d a c => Sys2Proof.Machine.execCvtl6 g rnd stream b16 sb d a c s
  | .vshf g mode d a b => Sys2Proof.Machine.execVshf g mode d a b s
  | .vbcst g d a b => Sys2Proof.Machine.execVbcst g d a b s
  | .vred g ty op team d a => Sys2Proof.Machine.execVred g ty op team d a s
  | .vscan g ty op team excl d a => Sys2Proof.Machine.execVscan g ty op team excl d a s
  | .vbal g team mode d a => Sys2Proof.Machine.execVbal g team mode d a s
  | .vrdl g d a b => Sys2Proof.Machine.execVrdl g d a b s
  | .vwrl g d a b => Sys2Proof.Machine.execVwrl g d a b s
  | .ld g sx wd pol d m => Sys2Proof.Machine.execLd g sx wd pol d m s
  | .st g bt wd pol d m => Sys2Proof.Machine.execSt g bt wd pol d m s
  | .lds g wd d m => Sys2Proof.Machine.execLds g wd d m s
  | .sts g bt wd d m => Sys2Proof.Machine.execSts g bt wd d m s
  | .atom g op wd d m => Sys2Proof.Machine.execAtom g op wd d m s
  | .acas g wd d m => Sys2Proof.Machine.execAcas g wd d m s
  | .fatom g op fmt d m => Sys2Proof.Machine.execFatom g op fmt d m s
  | .acq g => Sys2Proof.Machine.execAcq g s
  | .rel g => Sys2Proof.Machine.execRel g s
  | .cmo g form lvl d m => Sys2Proof.Machine.execCmo g form lvl d m s
  | .cmoBmp g lvl d m => Sys2Proof.Machine.execCmoBmp g lvl d m s
  | .pref g l2 m => Sys2Proof.Machine.execPref g l2 m s
  | .gdld g d m => Sys2Proof.Machine.execGdld g d m s
  | .ild g ord d a b => Sys2Proof.Machine.execIld g ord d a b s
  | .ildg g ord d a b => Sys2Proof.Machine.execIldg g ord d a b s
  | .ispl g ord a b c => Sys2Proof.Machine.execIspl g ord a b c s
  | .hins g d a b c => Sys2Proof.Machine.execHins g d a b c s
  | .hfind g d a b => Sys2Proof.Machine.execHfind g d a b s
  | .nbr g d a b => Sys2Proof.Machine.execNbr g d a b s
  | .hframe g d b => Sys2Proof.Machine.execHframe g d b s
  | .cpy g out late gen gslot bar zs org ext d m => Sys2Proof.Machine.execCpy g out late gen gslot bar zs org ext d m s
  | .cpyr g fmt late gen gslot bar zs org ext d m => Sys2Proof.Machine.execCpyr g fmt late gen gslot bar zs org ext d m s
  | .binit g d imm => Sys2Proof.Machine.execBinit g d imm s
  | .barr g a => Sys2Proof.Machine.execBarr g a s
  | .bwait g a => Sys2Proof.Machine.execBwait g a s
  | .btest g d a => Sys2Proof.Machine.execBtest g d a s
  | .bjoin g a => Sys2Proof.Machine.execBjoin g a s
  | .bleave g a => Sys2Proof.Machine.execBleave g a s
  | .mma g bsrc orda ordb d a za pa zb pb => Sys2Proof.Machine.execMma g bsrc orda ordb d a za pa zb pb s
  | .mzero g d => Sys2Proof.Machine.execMzero g d s
  | .mlda g bt pol d m => Sys2Proof.Machine.execMlda g bt pol d m s
  | .msta g bf bt pol tile d m => Sys2Proof.Machine.execMsta g bf bt pol tile d m s
  | .wbld g d m => Sys2Proof.Machine.execWbld g d m s
  | .msec g tgt => Sys2Proof.Machine.execMsec g tgt s
  | .mend g => Sys2Proof.Machine.execMend g s
  | .xprog g d m => Sys2Proof.Machine.execXprog g d m s
  | .xmv g d a b => Sys2Proof.Machine.execXmv g d a b s
  | .xcal g d b => Sys2Proof.Machine.execXcal g d b s
  | .xref g d a b => Sys2Proof.Machine.execXref g d a b s
  | .accept g d a => Sys2Proof.Machine.execAccept g d a s
  | .tbind g n16 slot d m => Sys2Proof.Machine.execTbind g n16 slot d m s
  | .tq g win d a b => Sys2Proof.Machine.execTq g win d a b s
  | .tqm g win d a b c => Sys2Proof.Machine.execTqm g win d a b c s
  | .nlaunch g ben gen bar gslot m => Sys2Proof.Machine.execNlaunch g ben gen bar gslot m s
  | .post g d m => Sys2Proof.Machine.execPost g d m s
  | .clauseHeader p slot => Sys2Proof.Machine.execClauseHeader p slot s
  | .rotationBlockTimeout p slot => Sys2Proof.Machine.execRotationBlockTimeout p slot s
  | .forcedIssue p => Sys2Proof.Machine.execForcedIssue p s
  | .promiseCheck op => Sys2Proof.Machine.execPromiseCheck op s
  | .slptWake p slot => Sys2Proof.Machine.execSlptWake p slot s
  | .loadDataReturn op evict => Sys2Proof.Machine.execLoadDataReturn op evict s
  | .storeRegister op word evict => Sys2Proof.Machine.execStoreRegister op word evict s
  | .atomicPerform op lane => Sys2Proof.Machine.execAtomicPerform op lane s
  | .mshrGrant p slot => Sys2Proof.Machine.execMshrGrant p slot s
  | .mshrAgeHold core => Sys2Proof.Machine.execMshrAgeHold core s
  | .cmoComplete op => Sys2Proof.Machine.execCmoComplete op s
  | .gdldDataArrival op => Sys2Proof.Machine.execGdldDataArrival op s
  | .splatAddArrival op k => Sys2Proof.Machine.execSplatAddArrival op k s
  | .hinsBucketStep op lane => Sys2Proof.Machine.execHinsBucketStep op lane s
  | .hframeApply op => Sys2Proof.Machine.execHframeApply op s
  | .copyIssueProbe p slot => Sys2Proof.Machine.execCopyIssueProbe p slot s
  | .copyComplete op => Sys2Proof.Machine.execCopyComplete op s
  | .guardSlotRead op => Sys2Proof.Machine.execGuardSlotRead op s
  | .cpyrPartApply op region => Sys2Proof.Machine.execCpyrPartApply op region s
  | .matrixPassGrant engine => Sys2Proof.Machine.execMatrixPassGrant engine s
  | .matrixEntryAged op => Sys2Proof.Machine.execMatrixEntryAged op s
  | .mmaComplete op => Sys2Proof.Machine.execMmaComplete op s
  | .tileRowComplete op => Sys2Proof.Machine.execTileRowComplete op s
  | .wbldComplete op => Sys2Proof.Machine.execWbldComplete op s
  | .xprogDone op => Sys2Proof.Machine.execXprogDone op s
  | .xmvPassDone op => Sys2Proof.Machine.execXmvPassDone op s
  | .xcalDone op => Sys2Proof.Machine.execXcalDone op s
  | .xrefDone op => Sys2Proof.Machine.execXrefDone op s
  | .tbindCopyDone op => Sys2Proof.Machine.execTbindCopyDone op s
  | .tqDone op => Sys2Proof.Machine.execTqDone op s
  | .detSyncEffect p slot => Sys2Proof.Machine.execDetSyncEffect p slot s
  | .qtailWrite q v => Sys2Proof.Machine.execQtailWrite q v s
  | .commandNop q => Sys2Proof.Machine.execCommandNop q s
  | .commandLaunch q => Sys2Proof.Machine.execCommandLaunch q s
  | .commandReplay q => Sys2Proof.Machine.execCommandReplay q s
  | .queueStarvationTimeout q => Sys2Proof.Machine.execQueueStarvationTimeout q s
  | .windowFreeAdmit launch => Sys2Proof.Machine.execWindowFreeAdmit launch s
  | .blockPlace launch core => Sys2Proof.Machine.execBlockPlace launch core s
  | .caravanPlace launch cores => Sys2Proof.Machine.execCaravanPlace launch cores s
  | .blockWaitTimeout launch cores => Sys2Proof.Machine.execBlockWaitTimeout launch cores s
  | .caravanWaitTimeout launch cores => Sys2Proof.Machine.execCaravanWaitTimeout launch cores s
  | .nodeKernel replay node => Sys2Proof.Machine.execNodeKernel replay node s
  | .nodeCellar replay node => Sys2Proof.Machine.execNodeCellar replay node s
  | .nodeCopy replay node => Sys2Proof.Machine.execNodeCopy replay node s
  | .nodeHostwait replay node => Sys2Proof.Machine.execNodeHostwait replay node s
  | .nodeCond replay node => Sys2Proof.Machine.execNodeCond replay node s
  | .nodeEvent replay node => Sys2Proof.Machine.execNodeEvent replay node s
  | .nodeComplete replay node => Sys2Proof.Machine.execNodeComplete replay node s
  | .rheadWrite r v => Sys2Proof.Machine.execRheadWrite r v s
  | .eventRecordWrite r => Sys2Proof.Machine.execEventRecordWrite r s
  | .ringCoalesceTimeout r => Sys2Proof.Machine.execRingCoalesceTimeout r s
  | .pctlPreWrite part => Sys2Proof.Machine.execPctlPreWrite part s
  | .partitionHalted part => Sys2Proof.Machine.execPartitionHalted part s
  | .shadowSaveDone part => Sys2Proof.Machine.execShadowSaveDone part s
  | .drainDone part => Sys2Proof.Machine.execDrainDone part s
  | .pctlResumeWrite part => Sys2Proof.Machine.execPctlResumeWrite part s
  | .restoreDone part => Sys2Proof.Machine.execRestoreDone part s
  | .shadowwaysWrite v => Sys2Proof.Machine.execShadowwaysWrite v s
  | .cmapWrite v => Sys2Proof.Machine.execCmapWrite v s
  | .xlstatRfailClear part => Sys2Proof.Machine.execXlstatRfailClear part s
  | .registerWrite off v => Sys2Proof.Machine.execRegisterWrite off v s
  | .atsTranslationCompletion pasid page size taddr r w u => Sys2Proof.Machine.execAtsTranslationCompletion pasid page size taddr r w u s
  | .atsCompletionTimeout pasid page => Sys2Proof.Machine.execAtsCompletionTimeout pasid page s
  | .prgResponseSuccess group => Sys2Proof.Machine.execPrgResponseSuccess group s
  | .prgResponseInvalidRequest group => Sys2Proof.Machine.execPrgResponseInvalidRequest group s
  | .prgResponseFailure group => Sys2Proof.Machine.execPrgResponseFailure group s
  | .atsInvalidateRequest pasid base size => Sys2Proof.Machine.execAtsInvalidateRequest pasid base size s
  | .regionRequeue p => Sys2Proof.Machine.execRegionRequeue p s
  | .hostAtomicopCompletion op lane ok => Sys2Proof.Machine.execHostAtomicopCompletion op lane ok s
  | .hostFlushReadCompletion op => Sys2Proof.Machine.execHostFlushReadCompletion op s
  | .peerAcknowledge op => Sys2Proof.Machine.execPeerAcknowledge op s
  | .hostBar2Read d n => Sys2Proof.Machine.execHostBar2Read d n s
  | .hostBar2Write d bytes => Sys2Proof.Machine.execHostBar2Write d bytes s
  | .peerAccessIn acc => Sys2Proof.Machine.execPeerAccessIn acc s
  | .cellarJobStart op => Sys2Proof.Machine.execCellarJobStart op s
  | .cellarDot op => Sys2Proof.Machine.execCellarDot op s
  | .cellarSegsum op => Sys2Proof.Machine.execCellarSegsum op s
  | .cellarAdamw op => Sys2Proof.Machine.execCellarAdamw op s
  | .cellarRapply op region => Sys2Proof.Machine.execCellarRapply op region s
  | .cellarFill op => Sys2Proof.Machine.execCellarFill op s
  | .cellarJobComplete op => Sys2Proof.Machine.execCellarJobComplete op s
  | .sequenceEntryFree stack => Sys2Proof.Machine.execSequenceEntryFree stack s
  | .plimitWrite v => Sys2Proof.Machine.execPlimitWrite v s
  | .throttleStepDown stack => Sys2Proof.Machine.execThrottleStepDown stack s
  | .throttleRestore stack => Sys2Proof.Machine.execThrottleRestore stack s
  | .hostPeerLoadCompletion op => Sys2Proof.Machine.execHostPeerLoadCompletion op s
  | .xareleaseWrite v => Sys2Proof.Machine.execXareleaseWrite v s
  | .attcmdWrite v => Sys2Proof.Machine.execAttcmdWrite v s
  | .linkPortStateChange port st => Sys2Proof.Machine.execLinkPortStateChange port st s
  | .linkFlitReplay port => Sys2Proof.Machine.execLinkFlitReplay port s
  | .uncorrectableError word => Sys2Proof.Machine.execUncorrectableError word s
  | .clusterFailure cluster => Sys2Proof.Machine.execClusterFailure cluster s
  | .cellarUnitFailure unit => Sys2Proof.Machine.execCellarUnitFailure unit s
  | .dramRowFailure spare => Sys2Proof.Machine.execDramRowFailure spare s
  | .snaptrigWrite v => Sys2Proof.Machine.execSnaptrigWrite v s
  | .hardwarePrefetch core pasid va => Sys2Proof.Machine.execHardwarePrefetch core pasid va s
  | .pageRequestGroupSend => Sys2Proof.Machine.execPageRequestGroupSend s
  | .powerOnReset => Sys2Proof.Machine.execPowerOnReset s
  | .attestationReport => Sys2Proof.Machine.execAttestationReport s
  | .correctableError => Sys2Proof.Machine.execCorrectableError s
  | .l2WayFailure => Sys2Proof.Machine.execL2WayFailure s
  | .snapInEdge => Sys2Proof.Machine.execSnapInEdge s
  | .snapctlFullClear => Sys2Proof.Machine.execSnapctlFullClear s
  | .snapOutRelease => Sys2Proof.Machine.execSnapOutRelease s
  | .thermalTrip => Sys2Proof.Machine.execThermalTrip s
  | .mergeTableAgeHold => Sys2Proof.Machine.execMergeTableAgeHold s

end Sys2Proof.Machine
end

