-- ==== Sys2Proof/Machine/Step.lean ====
section
/-!
DEFINITION. One step: what happens of itself at the clock, then what the agenda names, else the first thing that the default order finds
due; each step is one clock (log 1).
-/
namespace Sys2Proof.Machine
open Sys2Proof

/-- The turn of slot `k` of pack `p`, where it has one: the word at its PC fetched, decoded and executed. -/
def stepIssue (s : State) (p k : Nat) : Host.Outcome State Fault Refusal :=
  match turnOf s p k with
  | none => .fault .noPath
  | some s => match fetchInstr s p k with
    | .ok (some i) => exec i s
    | .ok none => .next (fetchFails s p k (.exc { cause := cILLOP, info := BitVec.ofNat 64 (s.path p k).pc }))
    | .error h => .next (fetchFails s p k h)

/-- One thing done (log 1). -/
def stepAct (s : State) : Act → Host.Outcome State Fault Refusal
  | .unit i => if isEvent i then exec i s else .fault .noPath
  | .issue p k => stepIssue s p k
  | .clock n => .next (passClocks s n)
  | .hostMem a bs => .next (ramWrites s (busBase + a) bs)
  | .allow n => .next (configure s (fun d => if allowanceOk n then { d with allowance := n } else d))
  | .atomicEnable b => .next (configure s (fun d => { d with atomicEn := b }))
  | .bar2 b => .next (configure s (fun d => { d with bar2 := b }))
  | .sense mw t => .next (sense s (fun d => { d with pwr := mw, temp := t }))
  | .together => .next s

/-- The first of several that can be done; the clock alone where none can. -/
def stepFirst (s : State) : List Act → Host.Outcome State Fault Refusal
  | [] => .next s
  | a :: as => match stepAct s a with
    | .next t => .next t
    | .fault _ => stepFirst s as
    | .refused r => .refused r

/-- ONE STEP OF THE DEVICE: a clock, or a further act in the clock that has begun (R291, R431; log 1). -/
def step (s : State) : Host.Outcome State Fault Refusal :=
  match s.agenda with
  | .together :: a :: rest => stepAct (actState s true a rest) a
  | a :: rest => stepAct (actState s false a rest) a
  | [] => let t := nextClock s; stepFirst t (dueActs t)

/-- `s` with an instruction stored where `step` fetches its next one (log 9). -/
def State.withFetchWord (s : State) (nbits w : Nat) : State :=
  let b := w % 2 ^ nbits
  placeWord s (BitVec.ofNat 64 b) (BitVec.ofNat 64 (b / 2 ^ 64))

end Sys2Proof.Machine
end

