-- ==== Sys2Proof/Safety.lean ====
section
/-!
DEFINITION. The terms that statements about the machine are made in: its invariant, when an instruction issues, and how an
issued instruction retires.
-/
namespace Sys2Proof.Machine
open Sys2Proof

/-- The canonical form of a block's stores: its scratchpad and its accumulator tiles. -/
def Block.Wf (b : Block) : Prop := mapWf 0 b.scratch = true ∧ ∀ t ∈ b.tiles, mapWf 0 t.el = true

/-- The invariant of the device: DRAM and outside memory, the weight buffer, the scratchpads and the accumulator tiles are in
canonical form, so that equal memories are equal data, and the L2 lists each valid word once. -/
structure Inv (s : State) : Prop where
  ram : Memory.wf s.mem.ram = true
  l2 : mapSorted none s.mem.l2 = true
  wbuf : mapWf 0 s.wbuf = true
  blocks : ∀ b ∈ s.blocks, b.Wf

/-- The operations of a state stand in the order of their numbers, which lie below the next one (R113). -/
structure Numbered (s : State) : Prop where
  rising : (s.ops.map (·.id)).Pairwise (· < ·)
  below : ∀ o ∈ s.ops, o.id < s.nextOp

/-- Instruction `i` issues at the focus of `s` in the members and slot of `cx`, the state being then `t` (a ganged
synchronising instruction of a `.det` launch has split its team, R362): its class, position and mode hold (R201, R202), its
fields are legal, its registers are allocated (R202), and no operand is interlocked (R114). -/
structure Issues (i : Instr) (s : State) (cx : Cx) (t : State) : Prop where
  focus : cxOf i s = some (cx, t)
  legal : i.wellFormed = true
  placed : ∀ p ∈ cx.packs, placeOk i cx (t.pack p).priv = true
  alloc : ∀ p ∈ cx.packs, i.vtop ≤ (t.pack p).alloc
  free : ∀ p ∈ cx.packs, interlocked t i p = false

/-- Nothing comes before a trap or fault that pack `p` takes in slot `k`: no region is open, and its other slot has no XMV that waits for
its pass (R301, R374, R404). -/
structure TrapsAtOnce (t : State) (p k : Nat) : Prop where
  closed : (t.pack p).region = none
  noXmv : ((t.pack p).slot (1 - k)).stall ≠ some .xmv

/-- `u` is `v` with instruction `i` retired in every member (R34, R35, R185, R361); what the members waited for in the merge
table is given up (R396), and nothing else differs. -/
structure Retires (i : Instr) (cx : Cx) (v u : State) : Prop where
  packs : ∀ p, u.pack p = if p ∈ cx.packs then retireIn i cx v.clk.toNat (v.pack p) else v.pack p
  rest : u = { v with packs := u.packs, merges := u.merges, mshr := u.mshr }

/-- `v` differs from `t` in its packs alone, and pack `p` is `f p` of what it was. -/
structure PacksOnly (t v : State) (f : Nat → Pack → Pack) : Prop where
  packs : ∀ p, v.pack p = f p (t.pack p)
  rest : v = { t with packs := v.packs }

/-- The operations that an issue adds, one for each item: member, page map and body (R113, R189). -/
def issued (t : State) (cx : Cx) (k : KCls) (dv ds : List Nat) (items : List (Nat × PMap × Body)) : List Op :=
  items.zipIdx.map (fun e => { id := t.nextOp + e.2, grp := t.nextOp, pack := some e.1.1, launch := (t.pack e.1.1).launch,
                               k := some k, flag := cx.flag, tr := e.1.2.1, dv := dv, ds := ds, body := e.1.2.2 })

/-- Each cached translation of `v` is one of `t`, or one of `t`'s L2 TLB copied to another cache (R394). -/
def TlbsFrom (t v : State) : Prop := ∀ e ∈ v.tlbs, e ∈ t.tlbs ∨ ∃ f ∈ t.tlbs, f.tc = .l2 ∧ e = { f with tc := e.tc }

/-- `v` is `t` with the operations of an issue added, the class counter of each of their members raised by one and its flag
held (R113, R189), the members' registers changed by `f`, and caches filled from the L2 TLB with translations that the issue
used (R394); nothing else differs. -/
structure AddsOps (t v : State) (cx : Cx) (k : KCls) (ps : List Nat) (f : Nat → Pack → Pack) (new : List Op) : Prop where
  packs : ∀ p, v.pack p = if p ∈ ps then { f p (t.pack p) with
    k := modNth (t.pack p).k k.ix (fun n => n + 1),
    fholds := if cx.flag = 15 then (t.pack p).fholds else modNth (t.pack p).fholds cx.flag (fun n => n + 1) } else t.pack p
  tlbs : TlbsFrom t v
  rest : v = { t with packs := v.packs, ops := t.ops ++ new, nextOp := t.nextOp + new.length, tlbs := v.tlbs }

/-- Wherever it issues and the conditions hold, `i` completes, adding the operations that the conditions name to its members
`ps`, and nothing else. -/
def Starts (i : Instr) (k : KCls) (ps : Cx → State → List Nat) (f : Cx → State → Nat → Pack → Pack)
    (new : Cx → State → List Op → Prop) : Prop :=
  ∀ s cx t ops, Issues i s cx t → (∀ p ∈ ps cx t, (t.pack p).region = none ∧ canCount t cx p k = true) → new cx t ops →
    ∃ v u, exec i s = .next u ∧ Retires i cx v u ∧ AddsOps t v cx k (ps cx t) (f cx t) ops

/-- `i` completes where its body leaves `v`. -/
def Completes (i : Instr) (s : State) (cx : Cx) (v : State) : Prop := ∃ u, exec i s = .next u ∧ Retires i cx v u

/-- Every pack of `v` has the registers that it has in `t`. -/
def SameRegs (t v : State) : Prop := ∀ p, (v.pack p).v = (t.pack p).v ∧ (v.pack p).tags = (t.pack p).tags ∧
  (v.pack p).s = (t.pack p).s ∧ (v.pack p).p = (t.pack p).p ∧ (v.pack p).q = (t.pack p).q

/-- The operation of a number has completed. -/
def Finished (u : State) (id : Nat) : Prop := ∀ o ∈ u.ops, o.id = id → o.done = true

/-- Wherever it issues, `i` completes, and S`d` of each member whose uniform guard condition holds becomes `val` of that
member; every other register, all memory and the rest of the device stay (R224, R227). -/
def ScalarResult (i : Instr) (g : Guard) (d : Fld) (val : State → Nat → W64) : Prop :=
  ∀ s cx t, Issues i s cx t → ∃ v u, exec i s = .next u ∧ Retires i cx v u ∧
    PacksOnly t v (fun p x => if p ∈ cx.packs ∧ t.ucond cx g p = true then x.sset (d.toNat - 384) (val t p) else x)

/-- Wherever it issues, `i` completes, and the lanes of each member's execute mask hold `val` in V`d`, the register's
provenance tag set from the sources by R179; everything else stays (R237). -/
def VectorResult (i : Instr) (g : Guard) (d : Fld) (srcs : List Fld) (val : State → Nat → Nat → W32) : Prop :=
  ∀ s cx t, Issues i s cx t → ∃ v u, exec i s = .next u ∧ Retires i cx v u ∧
    PacksOnly t v (fun p x => if p ∈ cx.packs ∧ t.active cx g p ≠ 0
      then (x.writeLanes d.toNat (t.active cx g p) (val t p)).settleTag d.toNat (t.active cx g p) (srcs.any x.srcB) else x)

/-- Wherever it issues with no source of `hard` tagged B in an active member, `i` completes, and the lanes of each member's
execute mask hold `val` in P`d`; everything else stays (R180, R229). -/
def PredResult (i : Instr) (g : Guard) (d : Fld) (hard : List Fld) (val : State → Nat → Nat → Bool) : Prop :=
  ∀ s cx t, Issues i s cx t →
    (∀ p ∈ cx.packs, t.active cx g p ≠ 0 → ∀ f ∈ hard, (t.pack p).srcB f = false) →
    ∃ v u, exec i s = .next u ∧ Retires i cx v u ∧
      PacksOnly t v (fun p x => if p ∈ cx.packs ∧ t.active cx g p ≠ 0
        then x.writePred d.toNat (t.active cx g p) (val t p) else x)

/-- As `PredResult` for Q`d` (R230). -/
def QResult (i : Instr) (g : Guard) (d : Fld) (hard : List Fld) (val : State → Nat → Nat → BitVec 24) : Prop :=
  ∀ s cx t, Issues i s cx t →
    (∀ p ∈ cx.packs, t.active cx g p ≠ 0 → (∃ q ∈ cx.packs, (t.pack q).beta = 0x7F800000) → ∀ f ∈ hard, (t.pack p).srcB f = false) →
    ∃ v u, exec i s = .next u ∧ Retires i cx v u ∧
      PacksOnly t v (fun p x => if p ∈ cx.packs ∧ t.active cx g p ≠ 0
        then (lanesOf (t.active cx g p)).foldl (fun y l => y.qset d.toNat l (val t p l)) x else x)

/-- A CPY (`red` none) or CPYR that issues in the members of `cx`, where its box is legal and untagged, its record at hand and its pages
translated, and a CPYR of a `.det` launch has its turn, comes to `r` so: it completes; S`d` of every member holds the promise; and
one copy of the box, counted in the member with the lowest active lane, is outstanding, or none where the box is empty and no guard
is to be read: then its barrier has its arrival and no operation is left outstanding (R136 to R147, R286 to R288, R362). -/
def CopyIssues (i : Instr) (g : Guard) (out : Bool) (red : Option RFmt) (late gen : Bool) (gslot : BitVec 3) (bar : BitVec 4) (zs : BitVec 7)
    (org ext d : Fld) (m : MAddr) (cx : Cx) (t : State) (r : Host.Outcome State Fault Refusal) : Prop :=
  ∀ p rest wm mp regs, t.acting cx g = p :: rest →
  let x := t.pack p
  let l := t.launchOf p
  let l0 := lowLane (t.active cx g p)
  let o := (List.range 5).map (fun a => (x.vget (org.toNat + a) l0).toInt)
  let b := (List.range 5).map (fun a => (x.vget (ext.toNat + a) l0).toNat)
  let z := if zs = 127 then 0 else (x.sget zs.toNat).toNat
  let va := x.ea m 0
  let tc := Tc.courier x.core
  let who := waiterOf p cx.slot
  (∀ q ∈ cx.packs, (t.pack q).region = none) → canCount t cx p .cpy = true →
  (red.isSome = true → l.det = true → detTurn t p = true) →
  b.all (fun n => decide (n ≤ 4096)) = true → (regsFrom org.toNat 5 ++ regsFrom ext.toNat 5).any x.tagB = false →
  va % 64 = 0 → z % 16 = 0 → probe t tc l.part l.pasid who (pagesOf va 64 false) = .ok wm →
  sourceWaits t p wm [(va, 64)] = false → t.mem.windows = [] →
  let w : BitVec 512 := BitVec.ofNat 512 (memNat t (wm.get va) 64)
  let rs := boxRanges w (boxRowsOf w o b)
  let pages := rs.flatMap (fun r => pagesOf r.1 r.2 (out || red.isSome))
  waybillOk w b red = true → boxBeyond w z b l.sRound = none → probe t tc l.part l.pasid who pages = .ok mp →
  (red.isSome = true → ∀ a ∈ rs.flatMap (fun r => pagesOf r.1 r.2 true), isBus (mp.get a.1) = false) →
  regionStacks (t.fillTc tc l.pasid (pagesOf va 64 false)) tc l.part l.pasid who mp
    (if red.isSome then regionsOf l.pasid rs else []) = .ok regs →
  seqRoom t regs = true →
  let now := boxEmpty b && !gen
  let prom := if now then t.clk else promiseAt t
  let n := takeNumbers t regs
  ∃ v u, r = .next u ∧ Retires i cx v u ∧ v.mem = t.mem ∧
    (∀ q, (v.pack q).v = (t.pack q).v ∧ (v.pack q).tags = (t.pack q).tags ∧ (v.pack q).p = (t.pack q).p ∧ (v.pack q).q = (t.pack q).q ∧
      (v.pack q).s = (if q ∈ cx.packs then (t.pack q).s.set (d.toNat - 384) prom else (t.pack q).s)) ∧
    (now = true → Numbered t → v.seqs = t.seqs ∧ Finished v t.nextOp ∧
      (v.block x.block).bars = ((barStep t x.block bar.toNat x.lclk.toNat (fun k => { k with arr := k.arr + 1 })).block x.block).bars ∧
      ((∀ r ∈ t.ops, r.pack = some p → r.k ≠ some .cpy) → (v.pack p).k = x.k)) ∧
    (now = false → v.blocks = t.blocks ∧ v.seqs = n.1.seqs ∧ (v.pack p).k = modNth x.k KCls.cpy.ix (fun n => n + 1) ∧
      v.ops = t.ops ++ issued t cx .cpy [] [] [(p, mp, .copy ⟨w, out, red, z, o, b, bar.toNat,
        if gen then some gslot.toNat else none, gen, false, prom, late && !l.det, l0, x.lclk.toNat, n.2⟩)])

end Sys2Proof.Machine
end

