-- ==== Sys2Proof/Certificates/Slice0/Obligations.lean ====
section
/-!
DEFINITION. The statements for the provers. Each docstring names the rules that the statement rests on.
-/
open Sys2Proof Sys2Proof.Machine

/-! ### Scalar registers -/

/-- R224: x is computed exactly from the operands read in the TYPE, clamped to its range with .SAT, and its low w bits are sign- or
zero-extended into S[D], in every member whose guard condition holds. -/
def Obligations.ScalarAluResults : Prop := ∀ (g : Guard) (ty : IntTy) (sat : Bool) (rel : Rel) (d a b c : Fld),
  let out := fun (sat : Bool) (x : Pack → Int) (t : State) p => extend ty (satTo ty sat (x (t.pack p)))
  ScalarResult (.sadd g ty sat d a b) g d (out sat fun x => x.sval ty a + x.sval ty b) ∧
  ScalarResult (.ssub g ty sat d a b) g d (out sat fun x => x.sval ty a - x.sval ty b) ∧
  ScalarResult (.smul g ty sat d a b) g d (out sat fun x => x.sval ty a * x.sval ty b) ∧
  ScalarResult (.smulh g ty d a b) g d (out false fun x => x.sval ty a * x.sval ty b / (2 ^ ty.width : Nat)) ∧
  ScalarResult (.smad g ty sat d a b c) g d (out sat fun x => x.sval ty a * x.sval ty b + x.sval ty c) ∧
  ScalarResult (.smin g ty d a b) g d (out false fun x => min (x.sval ty a) (x.sval ty b)) ∧
  ScalarResult (.smax g ty d a b) g d (out false fun x => max (x.sval ty a) (x.sval ty b)) ∧
  ScalarResult (.scmp g ty rel d a b) g d (out false fun x => if relHolds rel (x.sval ty a) (x.sval ty b) then 1 else 0) ∧
  ScalarResult (.ssel g ty d a b c) g d (out false fun x => if x.sval ty c ≠ 0 then x.sval ty a else x.sval ty b) ∧
  ScalarResult (.smov g ty d a) g d (out false fun x => x.sval ty a)

/-- R224: the bitwise instructions and the shifts, on the low w bits read unsigned; a count, SRCS of B as an unsigned 64-bit value,
of w or more gives 0, or the sign fill for SSAR. R225 and R226: SMOVI writes its sign-extended immediate, SMOVH the immediate
above the low word of its source, SBFE and SBFI the field at pos = b and 63 of min((b shr 8) and 127, 64) bits. -/
def Obligations.ScalarLogicAndFields : Prop :=
  (∀ (g : Guard) (ty : IntTy) (d a b : Fld),
    let out := fun (x : Pack → Int) (t : State) p => extend ty (x (t.pack p))
    let u := fun (x : Pack) f => (x.srcs f).toNat % 2 ^ ty.width
    ScalarResult (.sand g ty d a b) g d (out fun x => ((u x a &&& u x b : Nat) : Int)) ∧
    ScalarResult (.sor g ty d a b) g d (out fun x => ((u x a ||| u x b : Nat) : Int)) ∧
    ScalarResult (.sxor g ty d a b) g d (out fun x => ((u x a ^^^ u x b : Nat) : Int)) ∧
    ScalarResult (.sshl g ty d a b) g d (out fun x =>
      if ty.width ≤ (x.srcs b).toNat then 0 else x.sval ty a * (2 ^ (x.srcs b).toNat : Nat)) ∧
    ScalarResult (.sshr g ty d a b) g d (out fun x =>
      if ty.width ≤ (x.srcs b).toNat then 0 else ((u x a / 2 ^ (x.srcs b).toNat : Nat) : Int)) ∧
    ScalarResult (.ssar g ty d a b) g d (out fun x =>
      (if 2 ^ (ty.width - 1) ≤ u x a then (u x a : Int) - (2 ^ ty.width : Nat) else u x a) /
        (2 ^ min (x.srcs b).toNat ty.width : Nat)) ∧
    ScalarResult (.spop g ty d a) g d (out fun x => (((List.range ty.width).countP (u x a).testBit : Nat) : Int)) ∧
    ScalarResult (.sclz g ty d a) g d (out fun x =>
      ((if u x a = 0 then ty.width else ty.width - 1 - Nat.log2 (u x a) : Nat) : Int))) ∧
  (∀ (g : Guard) (ty : IntTy) (d a b c : Fld) (imm : BitVec 32),
    let pos := fun (x : Pack) => (x.srcs b).toNat % 64
    let len := fun (x : Pack) => min ((x.srcs b).toNat / 256 % 128) 64
    ScalarResult (.smovi g d imm) g d (fun _ _ => imm.signExtend 64) ∧
    ScalarResult (.smovh g d a imm) g d (fun t p => imm ++ ((t.pack p).srcs a).setWidth 32) ∧
    ScalarResult (.sbfe g ty d a b) g d (fun t p =>
      extend ty (bitField ty.signed ((t.pack p).srcs a).toNat (pos (t.pack p)) (len (t.pack p)))) ∧
    ScalarResult (.sbfi g ty d a b c) g d (fun t p =>
      BitVec.ofNat 64 (bitInsert 64 ((t.pack p).srcs a).toNat ((t.pack p).srcs c).toNat (pos (t.pack p)) (len (t.pack p)))))

/-- What the scalar ALU's wrapping means: without .SAT, the low w bits of SADD, SSUB, SMUL and SMAD are those of the same operation
on the low w bits of the sources (R224). What .SAT means: the result read back in the TYPE is the exact value clamped to the
TYPE's range (R224). What R240's elements mean: element e of the result depends on element e of the sources alone, and without
.SAT is the exact value modulo 2^w. -/
def Obligations.WrapAndClamp : Prop :=
  (∀ (ty : IntTy) (x : Pack) (a b c : Fld),
    let lo := fun (f : Fld) => (x.srcs f).setWidth ty.width
    (extend ty (satTo ty false (x.sval ty a + x.sval ty b))).setWidth ty.width = lo a + lo b ∧
    (extend ty (satTo ty false (x.sval ty a - x.sval ty b))).setWidth ty.width = lo a - lo b ∧
    (extend ty (satTo ty false (x.sval ty a * x.sval ty b))).setWidth ty.width = lo a * lo b ∧
    (extend ty (satTo ty false (x.sval ty a * x.sval ty b + x.sval ty c))).setWidth ty.width = lo a * lo b + lo c) ∧
  (∀ (ty : IntTy) (x : Int),
    intLo ty ≤ tval ty (extend ty (satTo ty true x)).toNat ∧ tval ty (extend ty (satTo ty true x)).toNat ≤ intHi ty ∧
    (intLo ty ≤ x → x ≤ intHi ty → tval ty (extend ty (satTo ty true x)).toNat = x) ∧
    (x < intLo ty → tval ty (extend ty (satTo ty true x)).toNat = intLo ty) ∧
    (intHi ty < x → tval ty (extend ty (satTo ty true x)).toNat = intHi ty)) ∧
  (∀ (ty : IntTy) (a b c : W32) (f : Nat → Nat → Nat → Int) (e : Nat),
    e < 32 / ty.width →
    elem (elemsOf ty false a b c f) ty.width e = wrapTo ty.width (f (elem a ty.width e) (elem b ty.width e) (elem c ty.width e)) ∧
    tval ty (elem (elemsOf ty true a b c f) ty.width e) =
      min (max (f (elem a ty.width e) (elem b ty.width e) (elem c ty.width e)) (intLo ty)) (intHi ty))

/-! ### Predicates and probabilities -/

/-- R229, R233, R241 and R247: the predicate instructions write one bit per lane of the execute mask. -/
def Obligations.PredicateInstructions : Prop :=
  (∀ (g : Guard) (na nb : Bool) (d a b : Fld) (ty : IntTy) (rel : Rel) (q : QRel)
      (stream : BitVec 8),
    let pa := fun (t : State) p l => (t.pack p).pv (pcodeOf na a) l
    let pb := fun (t : State) p l => (t.pack p).pv (pcodeOf nb b) l
    PredResult (.pset g d a) g d [] (fun t p l => ((t.pack p).srcs a).getLsbD (t.teamLane p l)) ∧
    PredResult (.pand g na nb d a b) g d [] (fun t p l => pa t p l && pb t p l) ∧
    PredResult (.por g na nb d a b) g d [] (fun t p l => pa t p l || pb t p l) ∧
    PredResult (.pxor g na nb d a b) g d [] (fun t p l => pa t p l != pb t p l) ∧
    PredResult (.pnot g d a) g d [] (fun t p l => !(t.pack p).pv a.toNat l) ∧
    PredResult (.pmov g na d a) g d [] pa ∧
    PredResult (.qdraw g stream d a) g d [] (fun t p l =>
      let f := qCode ((t.pack p).qget a.toNat l)
      f == 65535 || decide (draw (t.pack p).seed (8 * t.gIndex (t.pack p) l) stream.toNat % 65536 < f)) ∧
    PredResult (.vcmp g ty rel d a b) g d [a, b] (fun t p l =>
      relHolds rel (tval ty ((t.pack p).srcv .int a l).toNat) (tval ty ((t.pack p).srcv .int b l).toNat)) ∧
    PredResult (.fcmp g q d a b) g d [a, b] (fun t p l => qrelHolds q (f32 ((t.pack p).srcv .fp a l)) (f32 ((t.pack p).srcv .fp b l))))

/-- R230, R231, R235 and R236: the probability instructions write code and lineage per lane of the execute mask. R232 and R234:
QBLEND writes the blend of R66, tagged from its two vector sources, and QGRAD the slope of R65. -/
def Obligations.ProbabilityInstructions : Prop :=
  (∀ (g : Guard) (rel : QRel) (lin : BitVec 3) (rule : QRule) (op : LinOp)
      (m : BitVec 8) (d a b : Fld),
    let u := fun (t : State) p l => (t.pack p).qget a.toNat l
    let w := fun (t : State) p l => (t.pack p).qget b.toNat l
    QResult (.qcmp g rel lin d a b) g d [a, b] (fun t p l =>
      qMake (qcmpCode rel ((t.pack p).srcv .fp a l) ((t.pack p).srcv .fp b l) (t.pack p).beta) (2 ^ lin.toNat)) ∧
    QResult (.qand g rule d a b) g d [] (fun t p l =>
      qMake (if productRule rule (u t p l) (w t p l) then qmul (qCode (u t p l)) (qCode (w t p l))
        else min (qCode (u t p l)) (qCode (w t p l))) (qLin (u t p l) ||| qLin (w t p l))) ∧
    QResult (.qor g rule d a b) g d [] (fun t p l =>
      qMake (if productRule rule (u t p l) (w t p l)
        then nearestDiv ((qCode (u t p l) + qCode (w t p l)) * 65535 - qCode (u t p l) * qCode (w t p l)) 65535
        else max (qCode (u t p l)) (qCode (w t p l))) (qLin (u t p l) ||| qLin (w t p l))) ∧
    QResult (.qnot g d a) g d [] (fun t p l => qMake (65535 - qCode (u t p l)) (qLin (u t p l))) ∧
    QResult (.qmov g .qq d a) g d [] u ∧
    QResult (.qmov g .fromV d a) g d [] (fun t p l => ((t.pack p).srcv .int a l).setWidth 24) ∧
    VectorResult (.qmov g .toV d a) g d [] (fun t p l => (u t p l).setWidth 32) ∧
    QResult (.qlin g op m d a) g d [] (fun t p l =>
      (match op with | .set => m | .clr => (u t p l).extractLsb' 16 8 &&& ~~~ m | .or => (u t p l).extractLsb' 16 8 ||| m) ++
        (u t p l).extractLsb' 0 16)) ∧
  (∀ (g : Guard) (d a b c : Fld),
    VectorResult (.qblend g d a b c) g d [b, c] (fun t p l =>
      let f := qCode ((t.pack p).qget a.toNat l)
      if f = 65535 then (t.pack p).srcv .fp b l else if f = 0 then (t.pack p).srcv .fp c l
      else rne32 (fFma .rn (f32 (qFrac f)) (f32 (rne32 (fAdd .rn (f32 ((t.pack p).srcv .fp b l)) (fNeg (f32 ((t.pack p).srcv .fp c l))))))
        (f32 ((t.pack p).srcv .fp c l)))) ∧
    VectorResult (.qgrad g d a) g d [] (fun t p l => qgradVal (qCode ((t.pack p).qget a.toNat l)) (t.pack p).beta))

/-! ### Vectors -/

/-- R240: the vector integer instructions compute each element of each lane of the execute mask by itself, exactly, then clamp it
with .SAT or wrap it. R242, R243 and R244: VSEL picks a raw source by a predicate, VMOV and VMOVI copy a source or the
immediate, and VBFE and VBFI work on the whole lane with pos = b and 31 and len = min((b shr 8) and 63, 32). The model's
reading: VSEL takes all eight codes of TYPE (log 113). -/
def Obligations.VectorInstructions : Prop :=
  (∀ (g : Guard) (ty : IntTy) (sat : Bool) (d a b c : Fld),
    let out := fun (sat : Bool) (f : Nat → Nat → Nat → Int) (t : State) p l =>
      elemsOf ty sat ((t.pack p).srcvEl ty a l) ((t.pack p).srcvEl ty b l) ((t.pack p).srcvEl ty c l) f
    let one := fun (sat : Bool) (f : Nat → Int) (t : State) p l => elemsOf ty sat ((t.pack p).srcvEl ty a l) 0 0 (fun e _ _ => f e)
    let two := fun (sat : Bool) (f : Nat → Nat → Int) (t : State) p l =>
      elemsOf ty sat ((t.pack p).srcvEl ty a l) ((t.pack p).srcvEl ty b l) 0 (fun e h _ => f e h)
    let v := tval ty
    VectorResult (.vadd g ty sat d a b) g d [a, b] (two sat fun e h => v e + v h) ∧
    VectorResult (.vsub g ty sat d a b) g d [a, b] (two sat fun e h => v e - v h) ∧
    VectorResult (.vmul g ty sat d a b) g d [a, b] (two sat fun e h => v e * v h) ∧
    VectorResult (.vmulh g ty d a b) g d [a, b] (two false fun e h => v e * v h / (2 ^ ty.width : Nat)) ∧
    VectorResult (.vmad g ty sat d a b c) g d [a, b, c] (out sat fun e h k => v e * v h + v k) ∧
    VectorResult (.vand g ty d a b) g d [a, b] (two false fun e h => ((e &&& h : Nat) : Int)) ∧
    VectorResult (.vor g ty d a b) g d [a, b] (two false fun e h => ((e ||| h : Nat) : Int)) ∧
    VectorResult (.vxor g ty d a b) g d [a, b] (two false fun e h => ((e ^^^ h : Nat) : Int)) ∧
    VectorResult (.vnot g ty d a) g d [a] (one false fun e => (((2 ^ ty.width - 1) ^^^ e : Nat) : Int)) ∧
    VectorResult (.vshl g ty d a b) g d [a, b] (two false fun e h => if ty.width ≤ h then 0 else v e * (2 ^ h : Nat)) ∧
    VectorResult (.vshr g ty d a b) g d [a, b] (two false fun e h => if ty.width ≤ h then 0 else ((e / 2 ^ h : Nat) : Int)) ∧
    VectorResult (.vsar g ty d a b) g d [a, b] (two false fun e h => signedOf ty.width e / (2 ^ min h ty.width : Nat)) ∧
    VectorResult (.vmin g ty d a b) g d [a, b] (two false fun e h => min (v e) (v h)) ∧
    VectorResult (.vmax g ty d a b) g d [a, b] (two false fun e h => max (v e) (v h)) ∧
    VectorResult (.vabs g ty sat d a) g d [a] (one sat fun e => ((v e).natAbs : Int)) ∧
    VectorResult (.vpop g ty d a) g d [a] (one false fun e => (((List.range ty.width).countP e.testBit : Nat) : Int)) ∧
    VectorResult (.vclz g ty d a) g d [a] (one false fun e =>
      ((if e = 0 then ty.width else ty.width - 1 - Nat.log2 e : Nat) : Int))) ∧
  (∀ (g : Guard) (ty : IntTy) (nc : Bool) (d a b c : Fld) (imm : BitVec 32),
    let r := fun (t : State) p f l => (t.pack p).srcv .int f l
    let pos := fun (t : State) p l => (r t p b l).toNat % 32
    let len := fun (t : State) p l => min ((r t p b l).toNat / 256 % 64) 32
    VectorResult (.vsel g ty nc d a b c) g d [a, b] (fun t p l =>
      if (t.pack p).pv (pcodeOf nc c) l then r t p a l else r t p b l) ∧
    VectorResult (.vmov g ty d a) g d [a] (fun t p l => r t p a l) ∧
    VectorResult (.vmovi g d imm) g d [] (fun _ _ _ => imm) ∧
    VectorResult (.vbfe g ty d a b) g d [a, b] (fun t p l =>
      BitVec.ofInt 32 (bitField ty.signed (r t p a l).toNat (pos t p l) (len t p l))) ∧
    VectorResult (.vbfi g ty d a b c) g d [a, b, c] (fun t p l =>
      BitVec.ofNat 32 (bitInsert 32 (r t p a l).toNat (r t p c l).toNat (pos t p l) (len t p l))))

/-- R245 to R251: the floating-point instructions round the exact value of each lane once. -/
def Obligations.FloatResults : Prop := ∀ (g : Guard) (rnd : Rnd) (sat : Bool) (st : BitVec 8) (hf : HFmt) (d a b c : Fld),
  let r := fun (t : State) p f l => f32 ((t.pack p).srcv .fp f l)
  let dr := fun (t : State) p l e => t.srDraw (t.pack p) l e rnd st.toNat
  let out := fun (x : State → Nat → Nat → FVal) t p l => BitVec.ofNat 32 (F32.write rnd sat (dr t p l 0) (x t p l))
  let rne := fun (x : State → Nat → Nat → FVal) t p l => rne32 (x t p l)
  VectorResult (.fadd g rnd sat st d a b) g d [a, b] (out fun t p l => fAdd rnd (r t p a l) (r t p b l)) ∧
  VectorResult (.fsub g rnd sat st d a b) g d [a, b] (out fun t p l => fAdd rnd (r t p a l) (fNeg (r t p b l))) ∧
  VectorResult (.fmul g rnd sat st d a b) g d [a, b] (out fun t p l => fMul (r t p a l) (r t p b l)) ∧
  VectorResult (.ffma g rnd sat st d a b c) g d [a, b, c] (out fun t p l => fFma rnd (r t p a l) (r t p b l) (r t p c l)) ∧
  VectorResult (.fmin g d a b) g d [a, b] (rne fun t p l => fMin (r t p a l) (r t p b l)) ∧
  VectorResult (.fmax g d a b) g d [a, b] (rne fun t p l => fMax (r t p a l) (r t p b l)) ∧
  VectorResult (.frcp g d a) g d [a] (rne fun t p l => fRcp (r t p a l)) ∧
  VectorResult (.frsq g d a) g d [a] (rne fun t p l => fRsq (r t p a l)) ∧
  VectorResult (.fsqrt g d a) g d [a] (rne fun t p l => fSqrt (r t p a l)) ∧
  VectorResult (.fexp2 g d a) g d [a] (rne fun t p l => fExp2 (r t p a l)) ∧
  VectorResult (.flog2 g d a) g d [a] (rne fun t p l => fLog2 (r t p a l)) ∧
  VectorResult (.frnd g rnd d a) g d [a] (rne fun t p l => fRnd rnd (r t p a l)) ∧
  VectorResult (.fclass g d a) g d [a] (fun t p l => fClass ((t.pack p).srcv .fp a l)) ∧
  VectorResult (.hfma2 g rnd sat st hf d a b c) g d [a, b, c] (fun t p l =>
    let x := t.pack p
    let h := fun e => (hfmtOf hf).write rnd sat (dr t p l e)
      (fFma rnd (x.hsrc (hfmtOf hf) a l e) (x.hsrc (hfmtOf hf) b l e) (x.hsrc (hfmtOf hf) c l e))
    BitVec.ofNat 32 (h 0 + h 1 * 65536))

/-- R254 and R255: CVT converts the element at SPOS of each lane, sign-extending an integer result of a signed format, and CVTPK
packs the lane's values of consecutive registers, element 0 lowest. R256 and R257: CVTMX and CVTL6 write, in each lane of the
execute mask of each member, the block's image in consecutive registers and its scale in byte SB of V[C]. With X the exponent of
BLOCKX, element j of the image is the jth value over 2^X, rounded and saturated to the element's format; the scale is X + 127. A
block with a NaN or an infinity has image 0 and scale 255. The tags follow the sources' and every other lane, register and pack
stays. -/
def Obligations.Conversions : Prop :=
  (∀ (g : Guard) (rnd : Rnd) (sat : Bool) (st : BitVec 8) (df sf : CFmt)
      (spos : BitVec 3) (d a : Fld),
    VectorResult (.cvt g rnd sat st df sf spos d a) g d [a] (fun t p l =>
      let y := convert sf df rnd sat (t.srDraw (t.pack p) l 0 rnd st.toNat) ((t.pack p).cvtSrc sf a l spos.toNat)
      if cfmtSigned df then BitVec.ofInt 32 (cfmtInt df y) else BitVec.ofNat 32 y) ∧
    VectorResult (.cvtpk g rnd sat st df sf d a) g d ((List.range (32 / df.width)).map (fun e => a + BitVec.ofNat 9 e)) (fun t p l =>
      BitVec.ofNat 32 ((List.range (32 / df.width)).map (fun e =>
        convert sf df rnd sat (t.srDraw (t.pack p) l e rnd st.toNat) ((t.pack p).vget (a.toNat + e) l).toNat * 2 ^ (df.width * e))).sum)) ∧
  (∀ (g : Guard) (rnd : Rnd) (st : BitVec 8) (df : MxFmt) (b16 : Bool)
      (sb : BitVec 2) (d a c : Fld),
    let done := fun (i : Instr) (nd na : Nat) (emax : Int) (wd : Nat) (code : Nat → FVal → Nat) => ∀ s cx t, Issues i s cx t →
      ∃ v u, exec i s = .next u ∧ Retires i cx v u ∧ PacksOnly t v (fun p x =>
        let m := t.active cx g p
        let bad := (List.range na).any (fun j => x.tagB (a.toNat + j))
        let draw := fun l j => if rnd = .sr then t.drawAt x l (j % 8) ((st.toNat + j / 8) % 256) else 0
        let xs := fun l => (List.range na).map (fun j => f32 (x.vget (a.toNat + j) l))
        let image := fun l => match blockX (xs l) emax with
          | none => 0
          | some k => ((xs l).zipIdx.map (fun e => code (draw l e.2) (scaleDown k e.1) * 2 ^ (wd * e.2))).sum
        let scale := fun l => match blockX (xs l) emax with | none => 255 | some k => (k + 127).toNat
        if p ∈ cx.packs ∧ m ≠ 0 then
          (((lanesOf m).foldl (fun y l => ((List.range nd).foldl (fun y r =>
              y.vset (d.toNat + r) l (BitVec.ofNat 32 (image l / 2 ^ (32 * r)))) y).vset c.toNat l
            (putBits (x.vget c.toNat l) (8 * sb.toNat) 8 (scale l))) x).settleTags d.toNat nd m bad).settleTag c.toNat m bad
        else x)
    done (.cvtmx g rnd st df sb d a c) df.nregs 32 (mxFmt df).2 (1 + (mxFmt df).1.eb + (mxFmt df).1.mb) (fun dr x => (mxFmt df).1.write rnd true dr x) ∧
    done (.cvtl6 g rnd st b16 sb d a c) (if b16 then 3 else 6) (if b16 then 16 else 32) 3 6 (fun dr x =>
      match x with | .fin neg m e => l6Round rnd dr neg m e | .inf _ => 0 | .nan => 0))

/-- R259 to R261 and R265: VSHF and VBCST fetch from a lane of the span, the whole team where it issues ganged, an absent lane
reading 0; VWRL writes one lane of the span, and VRDL gives every member the lane named, where no member's source is tagged B.
R57, R58, R259, R262, R263 and R264: VRED, VSCAN and VBAL over a pack, a ganged team or a team of one pack: every lane of the
execute mask receives the tree's result, its prefix, or the ballot; outside a `.det` launch a source tagged B only tags the
destination. R229: PANY gives every member the mask of the team's lanes in the execute mask at which PV holds, where there is
one such lane in the execute mask at all; else nothing is written. The model's readings: lanes and members that are not present
read 0 and tag nothing, VRDL takes its index from the lowest member, and where PANY places a lane (logs 13, 14 and 17). -/
def Obligations.LaneOperations : Prop :=
  (∀ (g : Guard) (mode : ShMode) (d a b : Fld) (i : Instr) (s : State) (cx : Cx) (t : State),
    Issues i s cx t →
    let sp := t.span cx false
    let n := 16 * sp.length
    let done := fun (f : Nat → Pack → Pack) => ∃ v u, exec i s = .next u ∧ Retires i cx v u ∧
      PacksOnly t v (fun p x => if p ∈ cx.packs ∧ t.active cx g p ≠ 0 then f p x else x)
    (i = .vshf g mode d a b → done (fun p x => (x.writeLanes d.toNat (t.active cx g p) (fun l =>
      t.spanLane sp .int a (
        let k := (x.srcv .int b l).toNat
        let at0 := spanBase sp p + l
        match mode with
        | .idx => k % n
        | .xor => at0 ^^^ (k % n)
        | .up => if k ≤ at0 then at0 - k else at0
        | .down => if at0 + k < n then at0 + k else at0))).settleTag d.toNat (t.active cx g p) (t.spanB sp b || t.spanB sp a))) ∧
    (i = .vbcst g d a b → done (fun p x => (x.writeLanes d.toNat (t.active cx g p) (fun _ =>
      t.spanLane sp .int a ((x.srcs b).toNat % n))).settleTag d.toNat (t.active cx g p) (t.spanB sp a))) ∧
    (i = .vwrl g d a b → done (fun p x =>
      let k := (x.srcs b).toNat % n
      if spanBase sp p ≤ k ∧ k < spanBase sp p + 16 ∧ (t.active cx g p).getLsbD (k - spanBase sp p)
      then x.vset d.toNat (k - spanBase sp p) ((x.srcs a).setWidth 32) else x)) ∧
    (i = .vrdl g d a b → t.spanB sp a = false → ∃ v u, exec i s = .next u ∧ Retires i cx v u ∧
      PacksOnly t v (fun p x => if p ∈ cx.packs ∧ ∃ q ∈ cx.packs, t.active cx g q ≠ 0
        then x.sset (d.toNat - 384) ((t.spanLane sp .int a (((t.pack (cx.packs.headD 0)).srcs b).toNat % n)).setWidth 64) else x))) ∧
  (∀ (g : Guard) (ty : RedTy) (op : RedOp) (team excl : Bool) (m : BalMode) (d a : Fld)
      (i : Instr) (s : State) (cx : Cx) (t : State), Issues i s cx t →
    (team = true → (t.launchOf (cx.packs.headD 0)).teamW = 16 ∨ t.isGang (cx.packs.headD 0) = true) →
    let sp := t.span cx team
    let free := t.spanB sp a = false ∨ (t.launchOf (sp.headD 0)).det = false
    let mine := fun q : Nat => if q ∈ cx.packs then t.active cx g q else 0
    let vs := sp.flatMap (fun q => (List.range 16).map (fun l =>
      if (mine q).getLsbD l then (t.pack q).srcv (if ty = .f32 then .fp else .int) a l else redIdent ty op))
    let bits := (cx.packs.map (fun q => (t.active cx g q &&& (t.pack q).pvMask a.toNat).toNat * 2 ^ spanBase sp q)).sum
    let on := fun n => (List.range n).any (fun k => (mine (nth 0 sp (k / 16))).getLsbD (k % 16))
    let done := fun (f : Nat → Pack → Lanes → Pack) => ∃ v u, exec i s = .next u ∧ Retires i cx v u ∧
      PacksOnly t v (fun p x => if p ∈ cx.packs ∧ t.active cx g p ≠ 0 then f p x (t.active cx g p) else x)
    (i = .vred g ty op team d a → free → done (fun _ x k =>
      (x.writeLanes d.toNat k (fun _ => redTree (redComb ty op) (levels sp) vs)).settleTag d.toNat k (t.spanB sp a))) ∧
    (i = .vscan g ty op team excl d a → free → done (fun p x k => (x.writeLanes d.toNat k (fun l =>
      let n := spanBase sp p + l + (if excl then 0 else 1)
      let none' := if ty = .f32 ∧ op = .add then 0 else redIdent ty op
      let w := if on n then (redPrefix (redComb ty op) 7 n vs none).getD none' else none'
      if ty = .f32 ∧ F32.read w.toNat = .nan then 0x7FC00000 else w)).settleTag d.toNat k (t.spanB sp a))) ∧
    (i = .vbal g team m d a → done (fun p x k => match m with
      | .mask => ((x.writeLanes d.toNat k (fun _ => BitVec.ofNat 32 bits)).writeLanes (d.toNat + 1) k
          (fun _ => BitVec.ofNat 32 (bits / 2 ^ 32))).settleTags d.toNat 2 k false
      | .pre => (x.writeLanes d.toNat k (fun l => BitVec.ofNat 32 (popCount 64 (bits % 2 ^ (spanBase sp p + l))))).settleTag d.toNat k false
      | .total => (x.writeLanes d.toNat k (fun _ => BitVec.ofNat 32 (popCount 64 bits))).settleTag d.toNat k false))) ∧
  (∀ (g : Guard) (na : Bool) (d a : Fld) s cx t, Issues (.pany g na d a) s cx t →
    ∃ v u, exec (.pany g na d a) s = .next u ∧ Retires (.pany g na d a) cx v u ∧
      PacksOnly t v (fun p x => if p ∈ cx.packs ∧ ∃ q ∈ cx.packs, t.active cx g q ≠ 0
        then x.sset (d.toNat - 384) (BitVec.ofNat 64 ((cx.packs.map (fun q =>
          (t.active cx g q &&& (t.pack q).pvMask (pcodeOf na a)).toNat * 2 ^ t.teamLane q 0)).sum)) else x))

/-! ### Special registers -/

/-- R9, R307 and R308: what SRD reads of each scalar special register, and of TIDX and LANE. R381 and R382: what PSRD reads of each
privileged register: PCAUSE, PINFO, PMODE, PSCR0 to PSCR3, the doublewords of the topmost privileged frame, and the partition's
and the launch's registers. -/
def Obligations.SpecialReads : Prop :=
  (∀ (g : Guard) (d : Fld),
    let l := fun (t : State) p => t.launchOf p
    let b := fun (t : State) p => (t.blockOf p).b
    ScalarResult (.srd g d 0) g d (fun t _ => t.clk) ∧
    ScalarResult (.srd g d 1) g d (fun t p => (t.pack p).lclk) ∧
    ScalarResult (.srd g d 2) g d (fun t p => (t.pack p).beta.setWidth 64) ∧
    ScalarResult (.srd g d 3) g d (fun t p => (t.pack p).seed) ∧
    ScalarResult (.srd g d 4) g d (fun t p => (t.pack p).trapv) ∧
    ScalarResult (.srd g d 5) g d (fun t p => (t.pack p).trapc) ∧
    ScalarResult (.srd g d 6) g d (fun t p => (t.pack p).trapa) ∧
    ScalarResult (.srd g d 7) g d (fun t p => match (t.pack p).sect with
      | none => 0
      | some m => BitVec.ofNat 64 (m.label % 2 ^ 32 / 8 * 8 + 1 + m.mask.toNat * 2 ^ 32 + m.depth % 2 ^ 16 * 2 ^ 48)) ∧
    ScalarResult (.srd g d 8) g d (fun t p => (t.pack p).xbnd) ∧
    ScalarResult (.srd g d 10) g d (fun t p => BitVec.ofNat 64
      (b t p / ((l t p).gx * (l t p).gy) * 2 ^ 48 + b t p / (l t p).gx % (l t p).gy * 2 ^ 32 + b t p % (l t p).gx)) ∧
    ScalarResult (.srd g d 11) g d (fun t p => BitVec.ofNat 64
      ((l t p).teamW * 2 ^ 48 + (l t p).bZ * 2 ^ 32 + (l t p).bY * 2 ^ 16 + (l t p).bx)) ∧
    ScalarResult (.srd g d 12) g d (fun t p => BitVec.ofNat 64 ((l t p).gz * 2 ^ 48 + (l t p).gy * 2 ^ 32 + (l t p).gx)) ∧
    ScalarResult (.srd g d 13) g d (fun t p => BitVec.ofNat 64 ((t.pack p).pk % 2 ^ 12)) ∧
    ScalarResult (.srd g d 15) g d (fun t p => if (l t p).det then 1 else 0) ∧
    VectorResult (.srd g d 9) g d [] (fun t p j =>
      let k := 16 * (t.pack p).pk + j
      if (l t p).threads ≤ k then 0xFFFFFFFF
      else BitVec.ofNat 32 (k / ((l t p).bx * (l t p).bY) * 2 ^ 24 + k / (l t p).bx % (l t p).bY * 2 ^ 12 + k % (l t p).bx)) ∧
    VectorResult (.srd g d 14) g d [] (fun _ _ j => BitVec.ofNat 32 j)) ∧
  (∀ (g : Guard) (n : BitVec 8) (d : Fld),
    ScalarResult (.psrd g d 0) g d (fun t p => (t.pack p).pcause) ∧
    ScalarResult (.psrd g d 1) g d (fun t p => (t.pack p).pinfo) ∧
    ScalarResult (.psrd g d 2) g d (fun t p =>
      BitVec.ofNat 64 ((if (t.pack p).hasUserFrame then 1 else 0) + (if (t.pack p).priv then 2 else 0))) ∧
    (3 ≤ n.toNat → n.toNat < 7 → ScalarResult (.psrd g d n) g d (fun t p => nth 0 (t.pack p).pscr (n.toNat - 3))) ∧
    (8 ≤ n.toNat → n.toNat < 14 → ScalarResult (.psrd g d n) g d (fun t p =>
      ((privFrame (t.pack p).kennel).getD 0).extractLsb' (64 * (n.toNat - 8)) 64)) ∧
    ScalarResult (.psrd g d 16) g d (fun t p => (t.part (t.launchOf p).part).ptrapv.setWidth 64) ∧
    ScalarResult (.psrd g d 17) g d (fun t p => (t.part (t.launchOf p).part).phbase) ∧
    ScalarResult (.psrd g d 18) g d (fun t p => BitVec.ofNat 64 ((t.launchOf p).pasid % 2 ^ 20)) ∧
    ScalarResult (.psrd g d 19) g d (fun t p => BitVec.ofNat 64 (t.launchOf p).addr) ∧
    ScalarResult (.psrd g d 20) g d (fun t p =>
      BitVec.ofNat 64 ((t.blockOf p).b * (t.launchOf p).packsPer + (t.pack p).pk)))

/-- R62, R221, R307, R308, R381 and R382: SWR writes BETA (a negative value or a NaN becoming 0), SEED, TRAPV, TRAPC or TRAPA; PSWR,
in the privileged mode, writes PCAUSE, PINFO, PSCR0 to PSCR3, or a doubleword of the topmost privileged frame but for its
reserved bits and what says what the frame is; and GSET leaves a guard slot unresolved or resolved to a predicate read
uniformly, in each member whose condition holds; nothing else changes. The model's reading: which bits of a frame PSWR writes
(log 15). -/
def Obligations.SpecialRegisterWrites : Prop := ∀ (g : Guard) (neg u : Bool) (n : BitVec 8) (d a : Fld),
  let done := fun (i : Instr) (f : State → Cx → Nat → Pack → Pack) => ∀ s cx t, Issues i s cx t →
    ∃ v u, exec i s = .next u ∧ Retires i cx v u ∧
      PacksOnly t v (fun p x => if p ∈ cx.packs ∧ t.ucond cx g p = true then f t cx p x else x)
  let asBeta := fun (v : W32) => if v.getLsbD 31 ∨ 0x7F800000 < v.toNat then 0 else v
  done (.swr g 2 a) (fun _ _ _ x => { x with beta := asBeta ((x.srcs a).setWidth 32) }) ∧
  done (.swr g 3 a) (fun _ _ _ x => { x with seed := x.srcs a }) ∧
  done (.swr g 4 a) (fun _ _ _ x => { x with trapv := x.srcs a }) ∧
  done (.swr g 5 a) (fun _ _ _ x => { x with trapc := x.srcs a }) ∧
  done (.swr g 6 a) (fun _ _ _ x => { x with trapa := x.srcs a }) ∧
  done (.pswr g 0 a) (fun _ _ _ x => { x with pcause := x.srcs a }) ∧
  done (.pswr g 1 a) (fun _ _ _ x => { x with pinfo := x.srcs a }) ∧
  (3 ≤ n.toNat → n.toNat < 7 → done (.pswr g n a) (fun _ _ _ x => { x with pscr := x.pscr.set (n.toNat - 3) (x.srcs a) })) ∧
  (8 ≤ n.toNat → n.toNat < 14 → done (.pswr g n a) (fun _ _ _ x =>
    { x with kennel := modPrivFrame (fun f => writeFrame f (n.toNat - 8) (x.srcs a)) x.kennel, rewritten := true })) ∧
  let slot := fun (t : State) (cx : Cx) p (x : Pack) =>
    if u then none else some (x.pv (pcodeOf neg a) (lowLane (t.path p cx.slot).mask))
  done (.gset g neg u d a) (fun t cx p x => { x with gs := x.gs.set d.toNat (slot t cx p x) })

/-! ### Control -/

/-- R208 to R212: a branch that sends every lane of its path to one target moves the whole path there without touching the kennel.
BRC and RET move each member's path on its uniform condition. R15 and R208: a BRA that divides the path of a pack alone in its
team, with the other slot free and room in the kennel for one entry, leaves the path of the lower target in the branching slot
and that of the higher in the other, each returning to RN, and pushes a join entry for RN unless the path itself returns there.
R213: CALL and CALL.REG move each member's path whose condition holds to the callee, to return to F, leaving a join entry for F
with its lanes and return point; where the kennel holds fewer than 32 entries no spill is needed. The model's choices: a branch
is checked over the targets of the whole team, and an entry's stamp does not count the instruction that pushes it (logs 11 and
115). -/
def Obligations.Branches : Prop :=
  (∀ (g : Guard) (cnd : BitVec 4) (cond : BrcCond) (sc : BitVec 7) (tgt : BitVec 24) (rcv : BitVec 15)
      (kind : BitVec 2) (p1 p2 p3 : BitVec 4) (t1 t2 t3 : BitVec 16) (val : Fld) (nc : BitVec 3) (kb : BitVec 16) (toff : BitVec 64)
      (i : Instr) (s : State) (cx : Cx) (t : State) (dest : Int), Issues i s cx t → within dest = true →
    let off := fun {w : Nat} (o : BitVec w) => (cx.fall : Int) + 8 * o.toInt
    let moves := fun (pc : Nat → Nat) => ∃ v u, exec i s = .next u ∧ Retires i cx v u ∧
      PacksOnly t v (fun p x => if p ∈ cx.packs
        then { x.goto cx.slot (pc p) with gang := (v.pack p).gang } else x)
    let all := fun (sel : Pack → Nat → Int) => ∀ p ∈ cx.packs, (t.path p cx.slot).mask ≠ 0 ∧
      ∀ l, (t.path p cx.slot).mask.getLsbD l = true → (if (t.active cx g p).getLsbD l then sel (t.pack p) l else cx.fall) = dest
    (i = .bra g cnd tgt rcv → all (fun x l => if x.pv cnd.toNat l then off tgt else cx.fall) → moves (fun _ => dest.toNat)) ∧
    (i = .br4 g kind cnd tgt rcv p1 t1 p2 t2 p3 t3 → all (fun x l =>
        if x.pv cnd.toNat l then off tgt
        else if 1 ≤ kind.toNat ∧ x.pv p1.toNat l then off t1
        else if 2 ≤ kind.toNat ∧ x.pv p2.toNat l then off t2
        else if 3 ≤ kind.toNat ∧ x.pv p3.toNat l then off t3
        else cx.fall) → moves (fun _ => dest.toNat)) ∧
    (i = .switch g val nc kb rcv toff → all (fun x l =>
        let k := (x.vget val.toNat l).toNat
        if kb.toNat ≤ k ∧ k ≤ kb.toNat + nc.toNat then (cx.fall : Int) + 8 * (bitsAt toff (8 * (k - kb.toNat)) 8 : Nat) else cx.fall) →
      moves (fun _ => dest.toNat)) ∧
    (i = .brc g cond sc tgt → off tgt = dest → moves (fun p =>
      if t.ucond cx g p = true ∧ brcHolds cond ((t.pack p).sget sc.toNat).toInt = true then dest.toNat else cx.fall)) ∧
    (i = .ret g → (∀ p ∈ cx.packs, (t.pack p).region = none ∧ (t.ucond cx g p = true → ∃ r : Nat, (t.path p cx.slot).rpc = some r ∧ within r = true)) →
      moves (fun p => if t.ucond cx g p = true then (t.path p cx.slot).rpc.getD 0 else cx.fall))) ∧
  (∀ (g : Guard) (cnd : BitVec 4) (tgt : BitVec 24) (rcv : BitVec 15) (s : State) (cx : Cx)
      (t : State) (p : Nat) (q : Path), let i : Instr := .bra g cnd tgt rcv
    Issues i s cx t → cx.packs = [p] → (t.launchOf p).teamW = 16 → ((t.pack p).slot cx.slot).path = some q →
    ((t.pack p).slot (1 - cx.slot)).path = none → (t.pack p).region = none → kUnits (t.pack p).kennel < 32 → cx.slot < 2 →
    let dest := (cx.fall : Int) + 8 * tgt.toInt
    let rn := (cx.fall : Int) + 8 * rcv.toInt
    let m := t.active cx g p &&& (t.pack p).pvMask cnd.toNat
    within dest = true → within cx.fall = true → within rn = true → dest ≠ cx.fall → m ≠ 0 → q.mask &&& ~~~ m ≠ 0 →
    (∃ w, fetchCode t p cx.slot rn.toNat = .ok w ∧ isHeader w = true) →
    let lo : Path := if dest < cx.fall then ⟨dest.toNat, m, some rn.toNat⟩ else ⟨cx.fall, q.mask &&& ~~~ m, some rn.toNat⟩
    let hi : Path := if dest < cx.fall then ⟨cx.fall, q.mask &&& ~~~ m, some rn.toNat⟩ else ⟨dest.toNat, m, some rn.toNat⟩
    ∃ v u, exec i s = .next u ∧ Retires i cx v u ∧ v = { t with packs := v.packs } ∧ (∀ r, r ≠ p → v.pack r = t.pack r) ∧
      ((v.pack p).slot cx.slot).path = some lo ∧ ((v.pack p).slot (1 - cx.slot)).path = some hi ∧
      (v.pack p).kennel = (if some rn.toNat = q.rpc then (t.pack p).kennel
        else .join ((t.pack p).stamp % 2 ^ 20) ⟨rn.toNat, q.mask, q.rpc⟩ 0 :: (t.pack p).kennel)) ∧
  (∀ (g : Guard) (tgt : BitVec 24) (sc : BitVec 7) (i : Instr) (s : State) (cx : Cx) (t : State),
    Issues i s cx t →
    (∀ p ∈ cx.packs, (t.pack p).region = none ∧ kUnits (t.pack p).kennel < 32 ∧ ((t.pack p).slot cx.slot).path.isSome) →
    let goes := fun (dest : Nat → Int) =>
      (∀ p ∈ cx.packs, t.ucond cx g p = true → within (dest p) = true ∧ dest p % 8 = 0) →
      ∃ v u, exec i s = .next u ∧ Retires i cx v u ∧ v = { t with packs := v.packs } ∧
        (∀ p, p ∉ cx.packs → v.pack p = t.pack p) ∧ ∀ p ∈ cx.packs,
          (v.pack p).v = (t.pack p).v ∧ (v.pack p).s = (t.pack p).s ∧ (v.pack p).p = (t.pack p).p ∧ (v.pack p).q = (t.pack p).q ∧
          ((v.pack p).slot (1 - cx.slot)).path = ((t.pack p).slot (1 - cx.slot)).path ∧
          if t.ucond cx g p = true then
            ((v.pack p).slot cx.slot).path = some ⟨(dest p).toNat, (t.path p cx.slot).mask, some cx.fall⟩ ∧
            (v.pack p).kennel = .join ((t.pack p).stamp % 2 ^ 20) ⟨cx.fall, (t.path p cx.slot).mask, (t.path p cx.slot).rpc⟩ 0 ::
              (t.pack p).kennel
          else ((v.pack p).slot cx.slot).path = some { t.path p cx.slot with pc := cx.fall } ∧ (v.pack p).kennel = (t.pack p).kennel
    cx.slot < 2 →
    (i = .call g tgt → goes (fun _ => (cx.fall : Int) + 8 * tgt.toInt)) ∧
    (i = .callReg g sc → goes (fun p => ((t.pack p).sget sc.toNat).toInt)))

/-- R216, R218, R219, R222 and R276: NOP, and SLPT, WAITK, ACQ, REL, DSYNC and REGION where nothing is to be waited for and no
region is open, change no register and no memory but, for ACQ, the words that the issuing cores' L1s do not own. The model's
reading: when DSYNC passes (log 16). -/
def Obligations.WaitsThatPass : Prop := ∀ (g : Guard) (a : Fld) (k : KCls) (n : BitVec 6) (i : Instr) (s : State) (cx : Cx) (t : State),
  Issues i s cx t → (∀ p ∈ cx.packs, (t.pack p).region = none) →
  let passes := ∃ u, exec i s = .next u ∧ Retires i cx t u
  let still := fun (f : Op → Bool) => ∀ p ∈ cx.packs, t.ucond cx g p = true → ∀ o ∈ t.ops, o.pack = some p → o.done = false → f o = false
  let old := fun (o : Op) => o.k == some .ld || o.k == some .st
  (i = .nop g → passes) ∧
  (i = .slpt g a → (∀ p ∈ cx.packs, t.ucond cx g p = true → (t.pack p).srcs a ≤ t.clk) → passes) ∧
  (i = .waitk g k n → (∀ p ∈ cx.packs, t.ucond cx g p = true → nth 0 (t.pack p).k k.ix ≤ n.toNat) → passes) ∧
  (i = .rel g → still old → passes) ∧
  (i = .dsync g → (t.launchOf (cx.packs.headD 0)).det = false → still old → passes) ∧
  (i = .region g → cx.pc = cx.cl.hdr + 8 → (t.launchOf (cx.packs.headD 0)).regions = false → passes) ∧
  (i = .acq g → still (fun o => o.k == some .ld) → ∃ v u, exec i s = .next u ∧ Retires i cx v u ∧
    v = { t with mem := { t.mem with l1 := v.mem.l1 } } ∧
    ∀ e, e ∈ v.mem.l1 ↔ e ∈ t.mem.l1 ∧ ∀ p ∈ cx.packs, t.ucond cx g p = true →
      e.1 % 256 ≠ (t.pack p).core ∨ mapGet t.mem.owner (e.1 / 256) = some (t.pack p).core)

/-- R37, R114, R218, R219 and R276: SLPT before its clock, WAITK above its count, and REL and ACQ with an operation of the pack not
performed block their slot; nothing else changes. R27: a member of a split team that reaches a collective (VRED, VSCAN and VBAL
over the team, or MMA) before every other member waits: its slot blocks at the instruction and notes how many arrivals of its
pack came before; nothing else changes. The model's reading: which waits take a slot from its port (log 105). -/
def Obligations.Waits : Prop :=
  (∀ (g : Guard) (a : Fld) (k : KCls) (n : BitVec 6) (i : Instr) (s : State) (cx : Cx) (t : State) (p : Nat),
    Issues i s cx t → (∀ p ∈ cx.packs, (t.pack p).region = none) → p ∈ cx.packs → t.ucond cx g p = true →
    let blocks := fun (w : Stall) =>
      exec i s = .next (cx.packs.foldl (fun t p => t.modSlot p cx.slot (fun sl => sl.block w t.clk.toNat)) t)
    (i = .slpt g a → t.clk < (t.pack p).srcs a → blocks .slpt) ∧
    (i = .waitk g k n → n.toNat < nth 0 (t.pack p).k k.ix → blocks .waitk) ∧
    (i = .rel g → (∃ o ∈ t.ops, o.pack = some p ∧ o.done = false ∧ (o.k = some .ld ∨ o.k = some .st)) → blocks .rel) ∧
    (i = .acq g → (∃ o ∈ t.ops, o.pack = some p ∧ o.done = false ∧ o.k = some .ld) → blocks .rel)) ∧
  (∀ (g : Guard) (ty : RedTy) (op : RedOp) (excl : Bool) (mode : BalMode) (d a : Fld)
      (bsrc orda ordb : Bool) (za : BitVec 19) (pa : BitVec 12) (zb : BitVec 20) (pb : BitVec 12) (i : Instr) (s : State) (cx : Cx)
      (t : State) (q : Nat),
    (i = .vred g ty op true d a ∨ i = .vscan g ty op true excl d a ∨ i = .vbal g true mode d a ∨
      i = .mma g bsrc orda ordb d a za pa zb pb) →
    Issues i s cx t → g ≠ 15 → (t.launchOf (cx.packs.headD 0)).teamW ≠ 16 → t.isGang (cx.packs.headD 0) = false →
    q ∈ t.liveTeam (cx.packs.headD 0) → q ≠ cx.packs.headD 0 → (t.pack q).lead.stall ≠ some .collective →
    (t.pack q).heel.stall ≠ some .collective →
    exec i s = .next (cx.packs.foldl (fun t p => t.modSlot p cx.slot (fun sl => { sl.block .collective t.clk.toNat with
      came := if sl.stall = some .collective then sl.came else if (collSlots t p).isEmpty then 0
        else ((t.pack p).slot (1 - cx.slot)).came + 1 })) t))

/-- R17, R19 and R215: an EXIT that leaves lanes in its path removes those of its execute mask from it and from the kennel, and the
rest continue at F; where the pack's other slot is empty, they continue in the lead slot and the topmost path entry, where there
is one, takes the heel slot; no register changes. R12 and R215: an EXIT of every lane of a pack that has no other path and an
empty kennel retires the pack. R217 and R355: where no path entry waits in the kennel, YIELD moves the path of each member to F,
marks the pack that its condition holds in as standing back, and, where it was forced, as not counted until its next issue;
nothing else changes. -/
def Obligations.ExitAndYield : Prop :=
  (∀ (g : Guard) (s : State) (cx : Cx) (t : State) (p : Nat) (q : Path),
    Issues (.exit g) s cx t → cx.packs = [p] → (t.launchOf p).teamW = 16 → (t.pack p).region = none →
    ((t.pack p).slot cx.slot).path = some q → t.active cx g p ≠ 0 → q.mask &&& ~~~ t.active cx g p ≠ 0 → cx.slot < 2 →
    (∀ o ∈ t.ops, o.pack = some p → o.done = false → o.k ≠ some .ld ∧ o.k ≠ some .st) →
    ∃ v u, exec (.exit g) s = .next u ∧ Retires (.exit g) cx v u ∧ v = { t with packs := v.packs } ∧
      (∀ r, r ≠ p → v.pack r = t.pack r) ∧ (v.pack p).v = (t.pack p).v ∧ (v.pack p).s = (t.pack p).s ∧ (v.pack p).p = (t.pack p).p ∧
      (v.pack p).retired = false ∧
      let stays : Path := ⟨cx.fall, q.mask &&& ~~~ t.active cx g p, q.rpc⟩
      let other := ((t.pack p).slot (1 - cx.slot)).path
      let k := dropLanes (t.active cx g p) (t.pack p).kennel
      (other.isSome → ((v.pack p).slot cx.slot).path = some stays ∧ ((v.pack p).slot (1 - cx.slot)).path = other ∧ (v.pack p).kennel = k) ∧
      (other = none → (v.pack p).lead.path = some stays ∧ match takePath k with
        | some (r, k') => (v.pack p).heel.path = some r.2 ∧ (v.pack p).kennel = k'
        | none => (v.pack p).heel.path = none ∧ (v.pack p).kennel = k)) ∧
  (∀ (g : Guard) (s : State) (cx : Cx) (t : State) (p : Nat) (q : Path),
    Issues (.exit g) s cx t → cx.packs = [p] → (t.launchOf p).teamW = 16 → (t.pack p).region = none → cx.slot < 2 →
    ((t.pack p).slot cx.slot).path = some q → t.active cx g p = q.mask → q.mask ≠ 0 →
    ((t.pack p).slot (1 - cx.slot)).path = none → (t.pack p).kennel = [] →
    (∀ o ∈ t.ops, o.pack = some p → o.done = false → o.k ≠ some .ld ∧ o.k ≠ some .st) →
    ∃ u, exec (.exit g) s = .next u ∧ (u.pack p).retired = true ∧ (u.pack p).lead.path = none ∧ (u.pack p).heel.path = none) ∧
  (∀ (g : Guard) (s : State) (cx : Cx) (t : State), Issues (.yield g) s cx t →
    (∀ p ∈ cx.packs, hasPath (t.pack p).kennel = false) →
    ∃ v u, exec (.yield g) s = .next u ∧ Retires (.yield g) cx v u ∧
      PacksOnly t v (fun p x => if p ∈ cx.packs then { x.goto cx.slot cx.fall with
        gang := (v.pack p).gang, yielded := x.yielded || t.ucond cx g p,
        uncounted := if t.ucond cx g p then x.forced else x.uncounted } else x))

/-- R222 and R404: REGION at word 0 of a clause of a launch with regions opens a region in each member whose condition holds and
that has no other path and no open region: it keeps the restart point, and nothing else changes. R405, R406: the stores of an
open region. An ST of untagged, aligned, addressable sources adds its bytes to the region's buffered lines and one counted
operation that holds them back; no translation is asked for, and memory stays. Where the lines would be more than 32, it ends
the region and raises REGIONFULL. A byte of a buffered line reads back as the newest store to it left it. When the region ends,
every translation being at hand, each held store has its own bytes at their places, still to register, and memory stays. R168
and R298: outside a user handler MSEC opens a restart section at the header it names, with the path, the kennel's depth and LCLK
as they are, and MEND closes it, in each member whose condition holds; nothing else changes. The model's readings: a buffered
store keeps its cache policy, and which loads and stores of a region wait for a translation (logs 23 and 26). -/
def Obligations.RegionsAndSections : Prop :=
  (∀ (g : Guard) (s : State) (cx : Cx) (t : State), Issues (.region g) s cx t →
    cx.pc = cx.cl.hdr + 8 → (t.launchOf (cx.packs.headD 0)).regions = true →
    (∀ p ∈ cx.packs, t.ucond cx g p = true → (t.pack p).region = none ∧ ((t.pack p).slot (1 - cx.slot)).path = none ∧
      anyPath (t.pack p).kennel = false) →
    ∃ v, Completes (.region g) s cx v ∧ PacksOnly t v (fun p x => if p ∈ cx.packs ∧ t.ucond cx g p = true
      then { x with region := some ⟨cx.cl.hdr, (t.path p cx.slot).mask, (t.path p cx.slot).rpc, kUnits x.kennel, x.lclk, [], false, []⟩ }
      else x)) ∧
  ((∀ (g : Guard) (bt : Bool) (wd : Width) (pol : Policy) (d : Fld) (m : MAddr) (s : State) (cx : Cx) (t : State) (p : Nat) (r : Region),
      let i : Instr := .st g bt wd pol d m
      Issues i s cx t → cx.packs = [p] → (t.pack p).region = some r → t.active cx g p ≠ 0 → canCount t cx p .st = true →
      (t.pack p).indexB m = false → (bt = false → ∀ k < wd.regs, (t.pack p).tagB (d.toNat + k) = false) →
      let ls := lanesOf (t.active cx g p)
      (∀ l ∈ ls, (t.pack p).ea m l % wd.bytes = 0 ∧ (t.pack p).ea m l < 2 ^ 57) →
      let bytes := ls.flatMap (fun l => (List.range wd.bytes).map (fun k =>
        ((t.pack p).ea m l + k, ((t.pack p).vget (d.toNat + k / 4) l).extractLsb' (8 * (k % 4)) 8)))
      let lines := bufferBytes r.lines bytes
      (lines.length ≤ 32 → ∃ v u o, exec i s = .next u ∧ Retires i cx v u ∧
        v = { t with packs := v.packs, ops := t.ops ++ [o], nextOp := t.nextOp + 1 } ∧
        PacksOnly { t with ops := t.ops ++ [o], nextOp := t.nextOp + 1 } v (fun q x => if q = p then { x with
          region := some { r with lines := lines }, k := modNth x.k KCls.st.ix (fun n => n + 1),
          fholds := if cx.flag = 15 then x.fholds else modNth x.fholds cx.flag (fun n => n + 1) } else x) ∧
        o.id = t.nextOp ∧ o.pack = some p ∧ o.k = some .st ∧ o.done = false ∧ o.vbytes = bytes ∧
        o.body = .store [] (allocL1 pol && decide (4 ≤ wd.bytes))) ∧
      (32 < lines.length → ((t.pack p).slot (1 - cx.slot)).stall ≠ some .xmv → ∀ t', endRegion t p cx.slot = .ok t' →
        exec i s = .next (settleEnded (takeTrap (t'.leaveMerge (waiterOf p cx.slot)) p cx.slot cREGIONFULL 0)))) ∧
    (∀ (ls : List RLine) (bs : List (Nat × BitVec 8)) (a : Nat), (ls.map (·.addr)).Nodup →
      let look := fun (ls : List RLine) => (ls.find? (fun n => n.addr == a / 64 * 64)).bind (fun n => mapGet n.bytes (a % 64))
      look (bufferBytes ls bs) = match (bs.filter (fun b => b.1 == a)).getLast? with
        | some b => some b.2
        | none => look ls) ∧
    (∀ (s t : State) (p k : Nat) (r : Region), p < s.packs.length → (s.pack p).region = some r → endRegion s p k = .ok t →
      ∃ m, probe s (.l1 (s.pack p).core) (s.launchOf p).part (s.launchOf p).pasid (waiterOf p k) (s.regionWants p) = .ok m ∧
        (t.pack p).region = none ∧ t.mem = s.mem ∧ SameRegs s t ∧ (t.pack p).k = (s.pack p).k ∧ t.ops.length = s.ops.length ∧
        ∀ (n : Nat) (o : Op) (a : Bool), s.ops[n]? = some o → o.pack = some p → o.done = false → o.body = .store [] a →
          t.ops[n]? = some { o with tr := m, vbytes := [], body := .store (o.vbytes.map (fun b => (m.get b.1, b.2))) a })) ∧
  (∀ (g : Guard) (tgt : BitVec 24) (s : State) (cx : Cx) (t : State) (i : Instr), Issues i s cx t →
    (∀ p ∈ cx.packs, t.ucond cx g p = true → (t.pack p).inUserHandler = false) →
    let done := fun (f : Nat → Pack → Pack) => ∃ v, Completes i s cx v ∧
      PacksOnly t v (fun p x => if p ∈ cx.packs ∧ t.ucond cx g p = true then f p x else x)
    let dest := (cx.fall : Int) + 8 * tgt.toInt
    (∀ w, i = .msec g tgt → within dest = true → fetchCode t (cx.packs.headD 0) cx.slot dest.toNat = .ok w → isHeader w = true →
      done (fun p x => { x with sect := some ⟨dest.toNat, (t.path p cx.slot).mask, (t.path p cx.slot).rpc, kUnits x.kennel, x.lclk⟩ })) ∧
    (i = .mend g → done (fun _ x => { x with sect := none })))

/-- R31, R33, R35, R186, R187, R189 and R217: at a header with no pending cause, arrival, merge, regang or rotation, a legal header
word whose wait flags are clear starts its clause where R33 and the scheduler choose the slot and a port is free: the clause
holds the header's fields and is on the port, the PC is at body word 0, and the quarter's packs that stood back do so no more. A
word that is no header raises ILLTGT at its offset, and a flag that is held blocks the slot. R16 and R17: a path that reaches
its return point is taken out of its slot and its lanes join the top-most join entry of that PC that holds them; an entry that
all its lanes have reached becomes a path. R34 and R35: a slot blocked for 1,024 clocks at its header gives way to the path
entry with the oldest stamp and goes to the kennel with a fresh one; a pack whose ready clause has not issued for 1,024 clocks
goes first. The model's readings: the order of what happens at one header, when a slot's issue count restarts, and when a clause
leaves its port (logs 52, 97 and 105). -/
def Obligations.Headers : Prop :=
  (∀ (p k n : Nat) (s : State) (w : W64) (c : Cls),
    atHeader s p k = true → s.together p = [p] → (s.pack p).pending = [] → (s.path p k).rpc ≠ some (s.path p k).pc →
    canMerge (s.pack p) = false → (k = 0 → canRegang s p = false) → rotates s p k = false → p < s.packs.length → k < 2 →
    let pc := (s.path p k).pc
    let held := (List.range 12).any (fun i => w.getLsbD (12 + i) && decide (0 < nth 0 (s.pack p).fholds i))
    let turn := slotGoes s p k = true ∧ isChosen s p = true ∧ freePort s p = some n
    fetchCode s p k pc = .ok w →
    (isHeader w = true → headerOk w = true → Cls.ofCode (w.extractLsb' 0 3) = some c → w.extractLsb' 32 16 = 0#16 → held = false → turn →
      ∃ u, exec (.clauseHeader p k) s = .next u ∧ u = { s with packs := u.packs, merges := u.merges, mshr := u.mshr } ∧
        (∀ q, q ≠ p → u.pack q = if (s.pack q).quarterMate (s.pack p) then { s.pack q with yielded := false } else s.pack q) ∧
        (u.pack p).slot k = { (s.pack p).slot k with
          path := some { s.path p k with pc := pc + 8 }, clause := some (clauseOf pc w c), stall := none, port := some n, away := false } ∧
        (u.pack p).slot (1 - k) = (s.pack p).slot (1 - k) ∧ (u.pack p).yielded = false ∧ (u.pack p).forced = s.isForced (s.pack p)) ∧
    (isHeader w = true → held = true →
      exec (.clauseHeader p k) s = .next (s.modSlot p k (fun sl => sl.block .interlock s.clk.toNat))) ∧
    (isHeader w = false → TrapsAtOnce s p k → turn →
      exec (.clauseHeader p k) s = .next (settleEnded (takeTrap (s.leaveMerge (waiterOf p k)) p k cILLTGT (BitVec.ofNat 64 pc))))) ∧
  (∀ (p k : Nat) (s : State) (q : Path) (rest : List KItem) (mask a : Lanes) (rpc : Option Nat) (st : Nat),
    atHeader s p k = true → s.together p = [p] → (s.launchOf p).teamW = 16 → (s.pack p).pending = [] → (s.pack p).region = none →
    ((s.pack p).slot k).path = some q → q.rpc = some q.pc → (s.pack p).kennel = .join st ⟨q.pc, mask, rpc⟩ a :: rest →
    q.mask &&& mask = q.mask → ((s.pack p).slot (1 - k)).path = none → hasPath rest = false → p < s.packs.length → k < 2 →
    ∃ u, exec (.clauseHeader p k) s = .next u ∧ u = { s with packs := u.packs } ∧ (∀ r, r ≠ p → u.pack r = s.pack r) ∧
      (a ||| q.mask = mask → (u.pack p).heel.path = none ∧ (u.pack p).lead.path = some ⟨q.pc, mask, rpc⟩ ∧ (u.pack p).kennel = rest) ∧
      (a ||| q.mask ≠ mask → (u.pack p).lead.path = none ∧ (u.pack p).heel.path = none ∧
        (u.pack p).kennel = .join st ⟨q.pc, mask, rpc⟩ (a ||| q.mask) :: rest)) ∧
  (∀ (p k : Nat) (s : State), p < s.packs.length →
    (∀ (q r : Path) (st : Nat), atHeader s p k = true → s.together p = [p] → (s.launchOf p).teamW = 16 → (s.pack p).region = none →
      ((s.pack p).slot k).path = some q → (s.pack p).kennel = [.path st r] → ((s.pack p).slot k).blocked = true →
      ((s.pack p).slot k).stall ≠ some .region → (s.pack p).taking k = false → ((s.pack p).slot k).since + 1024 ≤ s.clk.toNat → k < 2 →
      ∃ u, exec (.rotationBlockTimeout p k) s = .next u ∧ u = { s with packs := u.packs } ∧ (∀ i, i ≠ p → u.pack i = s.pack i) ∧
        (u.pack p).slot k = { path := some r, last := ((s.pack p).slot k).last, seen := (s.pack p).stamp } ∧ (u.pack p).kennel = [.path ((s.pack p).stamp % 2 ^ 20) q]) ∧
    (hasReady s p = true → (s.pack p).forced = false → (s.pack p).uncounted = false → (s.pack p).last + 1024 ≤ s.clk.toNat →
      exec (.forcedIssue p) s = .next (s.modPack p (fun x => { x with forced := true }))))

/-- R87, R141, R218 and R363: an instruction that waits in its slot is performed when what it waits for has come and the slot has
its turn, exactly as an issue of it: SLPT, DSYNC and a rejected SLD retire, and a courier copy that waits is issued. The model's
choice: the moment of each such event is the agenda's (log 1). -/
def Obligations.WaitersReissue : Prop := ∀ (p k : Nat) (s s' : State) (w : Stall) (i : Instr),
  ((s.pack p).slot k).stall = some w → turnOf s p k = some s' → fetchInstr s' p k = .ok (some i) →
  (∀ g a cx t, i = .slpt g a → w = .slpt → (s.pack p).srcs a ≤ s.clk → Issues i s' cx t →
    (∀ q ∈ cx.packs, t.ucond cx g q = true → (t.pack q).srcs a ≤ t.clk) →
    ∃ u, exec (.slptWake p k) s = .next u ∧ Retires i cx t u) ∧
  (∀ g cx t, i = .dsync g → w = .det → detTurn s p = true → Issues i s' cx t → cx.packs = [p] → (t.pack p).region = none →
    t.ops = [] → detTurn t p = true → ∃ u, exec (.detSyncEffect p k) s = .next u ∧ Retires i cx t u) ∧
  (∀ g sx wd pol d m cx t since foot ms, i = .sld g sx wd pol d m → w = .mshr → Issues i s' cx t → cx.packs = [p] → cx.slot = k →
    t.ucond cx g p = true → (t.pack p).region = none → canCount t cx p .ld = true →
    let a : Acc := ⟨lowLane (t.path p k).mask, (t.pack p).ea m 0⟩
    let core := (t.pack p).core
    a.va % wd.bytes = 0 → probeEach t k [(p, [(a.va, false)])] = .ok ms → t.mshr.rejected = [⟨p, k, since, foot⟩] →
    mshrUsed (mshrWaits t core) + mshrNeed t core ((((mapOf ms p).at a.va).map (fun ph => (ph, wd.bytes))).toList) ≤ 128 →
    ∃ v u, exec (.mshrGrant p k) s = .next u ∧ Retires i cx v u ∧ v.mshr.rejected = [] ∧ v.mem = t.mem ∧
      v.ops = t.ops ++ issued t cx .ld [] [d.toNat - 384] [(p, mapOf ms p, .load [a] wd.bytes (d.toNat - 384) sx true pol)]) ∧
  (w = .mshr →
    (match i with
     | .ld .. => True
     | .sld .. => True
     | .ild .. => True
     | .ildg .. => True
     | .gdld .. => True
     | .hfind .. => True
     | .nbr .. => True
     | _ => False) →
    exec (.mshrGrant p k) s = exec i s') ∧
  (detTurn s p = true → w = .det → i.sync = true → exec (.detSyncEffect p k) s = exec i s') ∧
  (∀ g out late gen gs bar zs org ext d m cx t, i = .cpy g out late gen gs bar zs org ext d m → Issues i s' cx t →
    CopyIssues i g out none late gen gs bar zs org ext d m cx t (exec (.copyIssueProbe p k) s)) ∧
  (∀ g fmt late gen gs bar zs org ext d m cx t, i = .cpyr g fmt late gen gs bar zs org ext d m → Issues i s' cx t →
    CopyIssues i g false (some fmt) late gen gs bar zs org ext d m cx t (exec (.copyIssueProbe p k) s))

/-! ### Traps, faults and returns -/

/-- R361: every instruction that retires counts once in the LCLK of every member, and in no other pack's. -/
def Obligations.RetirementCounts : Prop := ∀ (i : Instr) (cx : Cx) (v u : State) (p : Nat), Retires i cx v u →
  (p ∈ cx.packs → (u.pack p).lclk = (v.pack p).lclk + 1) ∧ (p ∉ cx.packs → (u.pack p).lclk = (v.pack p).lclk)

/-- R371, R374 and R375: a user trap of a pack in no handler, whose TRAPV is not 0 and whose kennel has room, writes TRAPC and
TRAPA, pushes the frame of both slots, and starts the handler at TRAPV with the trapping path's lanes in the lead slot and the
heel slot empty; no other register and no memory changes. R371, R375, R377, R378 and R380: a system fault, a second trap or
fault inside the user handler, and a user trap taken while TRAPV is 0 enter the privileged handler at PTRAPV: PCAUSE and PINFO
hold the cause and its information, DOUBLE and the second cause, or UNHANDLED and the cause; the pack is then in privileged
mode. -/
def Obligations.TrapEntry : Prop :=
  (∀ (s : State) (p k cause : Nat) (info : W64) (q : Path), p < s.packs.length →
    (s.pack p).priv = false → (s.pack p).inUserHandler = false → (s.pack p).trapv ≠ 0 → cause < 0x10 → s.canPush p 3 = true →
    ((s.pack p).slot k).path = some q →
    let t := takeTrap s p k cause info
    t = { s with packs := t.packs } ∧ (∀ r, r ≠ p → t.pack r = s.pack r) ∧
    t.pack p = { s.pack p with
      trapc := BitVec.ofNat 64 cause, trapa := info,
      kennel := .frame ((s.pack p).mkFrame k cause false) :: (s.pack p).kennel,
      lead := { path := some ⟨(s.pack p).trapv.toNat, q.mask, none⟩, last := (s.pack p).lead.last, seen := (s.pack p).stamp },
      heel := { last := (s.pack p).heel.last } }) ∧
  (∀ (s : State) (p k cause : Nat) (info : W64) (q : Path), p < s.packs.length →
    (s.pack p).priv = false → s.canPush p 3 = true → ((s.pack p).slot k).path = some q →
    let pt := (s.part (s.launchOf p).part).ptrapv
    let t := takeTrap s p k cause info
    let inH := (s.pack p).inUserHandler
    pt ≠ 0 → (inH = true ∨ 0x10 ≤ cause ∨ (s.pack p).trapv = 0) →
    let c : Nat := if inH then cDOUBLE else if 0x10 ≤ cause then cause else cUNHANDLED
    t = { s with packs := t.packs } ∧ (∀ r, r ≠ p → t.pack r = s.pack r) ∧ (t.pack p).priv = true ∧
    (t.pack p).pcause = BitVec.ofNat 64 c ∧
    (t.pack p).pinfo = (if inH = false ∧ 0x10 ≤ cause then info else BitVec.ofNat 64 cause) ∧
    (t.pack p).lead = { path := some ⟨pt.toNat, q.mask, none⟩, last := (s.pack p).lead.last, seen := (s.pack p).stamp } ∧
    (t.pack p).heel = { last := (s.pack p).heel.last } ∧
    (t.pack p).v = (s.pack p).v ∧ (t.pack p).s = (s.pack p).s ∧ (t.pack p).p = (s.pack p).p ∧ (t.pack p).q = (s.pack p).q)

/-- R220: TRAP in a pack alone in its team takes the software user trap with its immediate in TRAPA, saving F, where no region is
open and its other slot has no XMV that waits for its pass. R376 and R385: what a trap or fault saved, its return restores: a
pack whose slots stand at clause headers, entered into a handler and popped at once by its lead slot, holds the paths and the
kennel it had, the lead slot having issued last. R309, R376 and R385: RFT in a user handler and PRFT in the privileged one,
whose frame's slots stood at legal headers, pop the topmost frame, restore both paths and continue there; registers keep what
the handler left in them. R383, R385 and R386: HALT writes a fault record, after which PFIDX has advanced, and ends its launch;
SNAP fires the snapshot trigger and continues. The model's readings: an XMV that has issued completes before a trap is taken,
and a rewritten frame is checked as it is popped (logs 15 and 124). -/
def Obligations.TrapAndReturns : Prop :=
  (∀ (g : Guard) (imm : BitVec 32) (s : State) (cx : Cx) (t : State) (p : Nat),
    Issues (.trap g imm) s cx t → cx.packs = [p] → t.ucond cx g p = true → TrapsAtOnce t p cx.slot →
    let at' := t.modSlot p cx.slot (fun sl =>
      { sl with path := sl.path.map (fun q => { q with pc := cx.fall }), clause := none, last := some ((t.pack p).stamp + 1) })
    ∃ u, exec (.trap g imm) s = .next u ∧
      u = settleEnded (takeTrap (at'.leaveMerge (waiterOf p cx.slot)) p cx.slot cTRAP (imm.setWidth 64))) ∧
  (∀ (s : State) (p k cause : Nat) (priv : Bool) (entry : Nat) (at' : W64),
    p < s.packs.length →
    let x := s.pack p
    let sound := fun (sl : Slot) => sl.clause = none ∧
      ∀ q, sl.path = some q → q.mask ≠ 0 ∧ q.mask &&& x.present = q.mask ∧ q.pc % 8 = 0 ∧ q.pc < 2 ^ 32 ∧ ∀ r, q.rpc = some r → r % 8 = 0 ∧ r < 2 ^ 32 - 8
    sound x.lead → sound x.heel → (x.lead.path.isSome ∧ x.heel.path.isSome ∨ hasPath x.kennel = false ∧ x.lead.path.isSome) →
    ∃ t, popFrame (s.modPack p (fun x => x.enter k cause priv entry)) p 0 at' = .ok t ∧
      t = { s with packs := t.packs } ∧ (∀ r, r ≠ p → t.pack r = s.pack r) ∧
      let again := fun (sl : Slot) (last : Option Nat) =>
        ({ path := sl.path, last := last, seen := if sl.path.isSome then x.stamp else 0 } : Slot)
      t.pack p = { x with lead := again x.lead (some (x.stamp + 1)), heel := again x.heel x.heel.last, rewritten := x.rewritten && !priv }) ∧
  (∀ (g : Guard) (i : Instr) (s : State) (cx : Cx) (t t' : State) (p : Nat),
    Issues i s cx t → cx.packs = [p] → t.ucond cx g p = true →
    (i = .rft g ∧ (t.pack p).inUserHandler = true ∨ i = .prft g) →
    popFrame t p cx.slot cx.at = .ok t' → (t'.pack p).lead.path.isSome = true →
    ∃ v u, exec i s = .next u ∧ Retires i cx v u ∧ v = { t with packs := v.packs } ∧
      (∀ r, r ≠ p → v.pack r = t.pack r) ∧ v.pack p = { t'.pack p with gang := (v.pack p).gang } ∧
      (v.pack p).v = (t.pack p).v ∧ (v.pack p).s = (t.pack p).s ∧ (v.pack p).p = (t.pack p).p ∧ (v.pack p).q = (t.pack p).q) ∧
  (∀ (g : Guard) (i : Instr) (s : State) (cx : Cx) (t : State) (p : Nat),
    Issues i s cx t → cx.packs = [p] → t.ucond cx g p = true →
    (t.pack p).launch < t.launches.length → (t.launchOf p).part < t.parts.length →
    (i = .halt g → ∃ u, exec i s = .next u ∧
      (u.part (t.launchOf p).part).pfidx = (t.part (t.launchOf p).part).pfidx + 1 ∧
      ((u.launch (t.pack p).launch).stat = .ending ∨ (u.launch (t.pack p).launch).stat = .retired) ∧
      (u.launch (t.pack p).launch).failed = true ∧ (u.launch (t.pack p).launch).faults = (t.launchOf p).faults + 1) ∧
    (i = .snap g → ∃ u, exec i s = .next u ∧ Retires i cx (snapTrigger t 1) u))

/-- R22, R93, R100 to R102, R180, R208, R213, R214, R270, R279, R280, R371, R372 and R402: where a pack that issues alone, with
nothing that comes before a trap, has an operand that its instruction's table refuses, it takes the table's fault with its
information: BNDUSE of the first tagged source of VCMP, of the index of LD and of the data of ST; MISALIGN and XLATE of LD and
ST, with the lowest misaligned lane's address and the lowest address that no translation serves; GRIDRANGE of ILD and ILDG with
lane, axis and coordinate; OPFORMAT of an invalid slot, of a layout that does not suit and of a record that breaks its rules;
ILLTGT of BRA's target and return point and of a RET without one or to one out of the window; KENNELFULL of a BRA or CALL whose
entries have no room. The model's readings: GRIDRANGE comes before BNDUSE and the translations, an invalid slot gives TRAPA 0,
and a branch is checked over the targets of the whole team (logs 11, 20 and 21). -/
def Obligations.OperandTraps : Prop := ∀ (g : Guard) (s : State) (cx : Cx) (t : State) (p : Nat), cx.packs = [p] → TrapsAtOnce t p cx.slot →
  t.active cx g p ≠ 0 →
  let x := t.pack p
  let traps := fun (i : Instr) (cause : Nat) (info : W64) => Issues i s cx t →
    exec i s = .next (settleEnded (takeTrap (t.leaveMerge (waiterOf p cx.slot)) p cx.slot cause info))
  let ls := lanesOf (t.active cx g p)
  let counts := fun (k : KCls) => canCount t cx p k = true
  let fails := fun (a : Nat) (w : Bool) => t.xlate (.l1 x.core) (t.launchOf p).pasid (waiterOf p cx.slot) a w = .fail
  let lowest := fun (as : List Nat) (w : Bool) (a : Nat) => a ∈ as ∧ fails a w ∧ ∀ b ∈ as, fails b w → a ≤ b
  (∀ ty rel d a b f, [a, b].find? x.srcB = some f → traps (.vcmp g ty rel d a b) cBNDUSE (f.setWidth 64)) ∧
  (∀ sx wd pol d m, let i : Instr := .ld g sx wd pol d m
    counts .ld →
    (x.indexB m = true → traps i cBNDUSE (m.index.setWidth 64)) ∧
    (x.indexB m = false → ∀ l, ls.find? (fun l => x.ea m l % wd.bytes != 0) = some l → traps i cMISALIGN (BitVec.ofNat 64 (x.ea m l))) ∧
    (x.indexB m = false → (∀ l ∈ ls, x.ea m l % wd.bytes = 0) → ∀ a, lowest (ls.map (x.ea m)) false a → traps i cXLATE (xlateInfo a false))) ∧
  (∀ wd pol d m, let i : Instr := .st g false wd pol d m
    let data := (List.range wd.regs).map (d.toNat + ·)
    counts .st → x.indexB m = false →
    (∀ r, data.find? x.tagB = some r → traps i cBNDUSE (BitVec.ofNat 64 r)) ∧
    ((∀ r ∈ data, x.tagB r = false) →
      (∀ l, ls.find? (fun l => x.ea m l % wd.bytes != 0) = some l → traps i cMISALIGN (BitVec.ofNat 64 (x.ea m l))) ∧
      ((∀ l ∈ ls, x.ea m l % wd.bytes = 0) →
        ∀ a, lowest (ls.flatMap (fun l => (List.range wd.bytes).map (x.ea m l + ·))) true a → traps i cXLATE (xlateInfo a true)))) ∧
  (∀ (grad : Bool) o d a b, let i : Instr := if grad then .ildg g o d a b else .ild g o d a b
    let slot := nth none (t.blockOf p).slots b.toNat
    counts .ld →
    (slot = none → traps i cOPFORMAT 0) ∧
    (∀ ds, slot = some ds → gLayout ds.raw = 3 → traps i cOPFORMAT (BitVec.ofNat 64 ds.home)) ∧
    (∀ ds l axis at', slotOf cx t b (fun r => gLayout r != 3) (fun r => regsFrom a.toNat (gDim r) ++
        regsFrom d.toNat (gChan r * (if grad then gDim r + 1 else 1))) = .ok ds →
      (gridLanes t cx g a.toNat (gDim ds.raw) none p).findSome? (fun l => (gridFault ds.raw (ordOf ds.raw o) l.x).map (fun e => (l.lane, e))) =
        some (l, axis, at') →
      traps i cGRIDRANGE (BitVec.ofNat 64 (axis + 16 * l) ||| (BitVec.ofInt 64 at' <<< 32)))) ∧
  (∀ d a b, counts .ld → ∀ ds, nth none (t.blockOf p).slots b.toNat = some ds → gLayout ds.raw ≠ 3 →
    traps (.hfind g d a b) cOPFORMAT (BitVec.ofNat 64 ds.home)) ∧
  (∀ d m mp, let va := x.ea m 0
    let foot := [(mp.get va, 64)]
    counts .ld → va % 64 = 0 → probe t (.l1 x.core) (t.launchOf p).part (t.launchOf p).pasid (waiterOf p cx.slot) [(va, false)] = .ok mp →
    issueWaits t p [p] mp va 64 = false → t.mshr.rejected = [] → mshrUsed (mshrWaits t x.core) + mshrNeed t x.core foot ≤ 128 →
    t.mem.windows = [] → gridLegal (BitVec.ofNat 512 (issueRead t p mp va 64)) = false → traps (.gdld g d m) cOPFORMAT (BitVec.ofNat 64 va)) ∧
  (∀ cnd tgt rcv q, let i : Instr := .bra g cnd tgt rcv
    let dest := (cx.fall : Int) + 8 * tgt.toInt
    let rn := (cx.fall : Int) + 8 * rcv.toInt
    let m := t.active cx g p &&& x.pvMask cnd.toNat
    (x.slot cx.slot).path = some q → within cx.fall = true → m ≠ 0 →
    (within dest = false → traps i cILLTGT (BitVec.ofInt 64 dest)) ∧
    (within dest = true → dest ≠ cx.fall → q.mask &&& ~~~ m ≠ 0 →
      (within rn = false → traps i cILLTGT (BitVec.ofInt 64 rn)) ∧
      ∀ w, within rn = true → fetchCode t p cx.slot rn.toNat = .ok w →
        (isHeader w = false → traps i cILLTGT (BitVec.ofInt 64 rn)) ∧
        (isHeader w = true → t.canPush p (x.splitPushes cx.slot rn.toNat q.rpc 2) = false → traps i cKENNELFULL 0))) ∧
  (t.ucond cx g p = true →
    ((t.path p cx.slot).rpc = none → traps (.ret g) cILLTGT cx.at) ∧
    (∀ r : Nat, (t.path p cx.slot).rpc = some r → within r = false → traps (.ret g) cILLTGT (BitVec.ofNat 64 r)) ∧
    ∀ tgt : BitVec 24, within ((cx.fall : Int) + 8 * tgt.toInt) = true → t.canPush p 1 = false → traps (.call g tgt) cKENNELFULL 0)

/-! ### Memory -/

/-- R85, R113, R228, R270 and R402: LD and SLD of aligned addresses that are translated, of members whose index is not tagged B,
with the MSHRs they need free, issue one operation for each member with its accesses and wait for nothing. R113, R228, R270 and
R271: ST and SST of aligned, translated addresses issue one operation for each member with its bytes in ascending lane order, at
the translated places; a B-tagged source needs `.B`. -/
def Obligations.LoadsAndStoresIssue : Prop :=
  (∀ (g : Guard) (sx : Bool) (wd : Width) (pol : Policy) (d : Fld) (m : MAddr),
    let n := wd.bytes
    let go := fun (t : State) (cx : Cx) (ps : List Nat) (accs : Nat → List Acc) (dv ds : List Nat) (body : List Acc → Body) ops =>
      ∃ ms, (∀ p ∈ ps, ∀ a ∈ accs p, a.va % n = 0) ∧
        probeEach t cx.slot (ps.map (fun p => (p, (accs p).map (fun a => (a.va, false))))) = .ok ms ∧
        t.mshr.rejected = [] ∧
        (let core := (t.pack (cx.packs.headD 0)).core
         mshrUsed (mshrWaits t core) + mshrNeed t core (ps.flatMap (fun p =>
           (accs p).filterMap (fun a => ((mapOf ms p).at a.va).map (fun ph => (ph, n))))) ≤ 128) ∧
        ops = issued t cx .ld dv ds (ps.map (fun p => (p, mapOf ms p, body (accs p))))
    let lanes := fun (cx : Cx) (t : State) p => (lanesOf (t.active cx g p)).map (fun l => (⟨l, (t.pack p).ea m l⟩ : Acc))
    let one := fun (cx : Cx) (t : State) p => [(⟨lowLane (t.path p cx.slot).mask, (t.pack p).ea m 0⟩ : Acc)]
    let uni := fun (cx : Cx) (t : State) => cx.packs.filter (t.ucond cx g)
    Starts (.ld g sx wd pol d m) .ld (fun cx t => t.acting cx g) (fun _ _ _ x => x) (fun cx t ops =>
      (∀ p ∈ t.acting cx g, (t.pack p).indexB m = false) ∧
      go t cx (t.acting cx g) (lanes cx t) ((List.range wd.regs).map (d.toNat + ·)) []
        (fun accs => .load accs n d.toNat sx false pol) ops) ∧
    Starts (.sld g sx wd pol d m) .ld uni (fun _ _ _ x => x) (fun cx t ops =>
      go t cx (uni cx t) (one cx t) [] [d.toNat - 384] (fun accs => .load accs n (d.toNat - 384) sx true pol) ops)) ∧
  (∀ (g : Guard) (bt : Bool) (wd : Width) (pol : Policy) (d : Fld) (m : MAddr),
    let n := wd.bytes
    let alloc := allocL1 pol && decide (4 ≤ n)
    let go := fun (t : State) (cx : Cx) (ps : List Nat) (vas : Nat → List Nat) (bytes : Nat → List (Nat × BitVec 8)) ops =>
      ∃ ms, (∀ p ∈ ps, ∀ a ∈ vas p, a % n = 0) ∧
        probeEach t cx.slot (ps.map (fun p => (p, (bytes p).map (fun b => (b.1, true))))) = .ok ms ∧
        ops = issued t cx .st [] [] (ps.map (fun p => (p, mapOf ms p, Body.store ((bytes p).map (fun b => ((mapOf ms p).get b.1, b.2))) alloc)))
    let uni := fun (cx : Cx) (t : State) => cx.packs.filter (t.ucond cx g)
    Starts (.st g bt wd pol d m) .st (fun cx t => t.acting cx g) (fun _ _ _ x => x) (fun cx t ops =>
      (∀ p ∈ t.acting cx g, (t.pack p).indexB m = false ∧ (bt = false → ∀ i < wd.regs, (t.pack p).tagB (d.toNat + i) = false)) ∧
      go t cx (t.acting cx g) (fun p => (lanesOf (t.active cx g p)).map (fun l => (t.pack p).ea m l))
        (fun p => (lanesOf (t.active cx g p)).flatMap (fun l => (List.range n).map (fun i =>
          ((t.pack p).ea m l + i, ((t.pack p).vget (d.toNat + i / 4) l).extractLsb' (8 * (i % 4)) 8)))) ops) ∧
    Starts (.sst g wd pol d m) .st uni (fun _ _ _ x => x) (fun cx t ops =>
      go t cx (uni cx t) (fun p => [(t.pack p).ea m 0])
        (fun p => (leBytes ((t.pack p).srcs d).toNat n).zipIdx.map (fun b => ((t.pack p).ea m 0 + b.2, b.1))) ops))

/-- R73, R270 and R272: LDS and STS of aligned addresses inside the reachable scratchpad, with no word poisoned and no source tagged
B but with `.B`, act at once: LDS places the words of each lane and tags its registers, STS writes each lane's bytes in
ascending lane order; no global memory and no other block changes. R73, R371 and R372: an LDS or STS with a misaligned lane
raises MISALIGN with the lowest such lane's address; an aligned one of which lanes reach past the scratchpad raises SCRATCHRANGE
with the lowest byte of theirs that lies there; nothing is loaded or stored. -/
def Obligations.Scratchpad : Prop :=
  (∀ (g : Guard) (bt : Bool) (wd : Width) (d : Fld) (m : MAddr) (i : Instr) (s : State)
      (cx : Cx) (t : State) (p : Nat), Issues i s cx t → cx.packs = [p] → t.active cx g p ≠ 0 → (t.pack p).indexB m = false →
    (t.pack p).block < t.blocks.length →
    let ls := lanesOf (t.active cx g p)
    let ea := fun l => (t.pack p).ea m l
    (∀ l ∈ ls, ea l % wd.bytes = 0 ∧ ea l + wd.bytes ≤ (t.launchOf p).sRound) →
    let b := t.blockOf p
    let c := t.coreIx (t.pack p)
    (i = .lds g wd d m → b.spoison = [] → ∃ v u, exec i s = .next u ∧ Retires i cx v u ∧
      PacksOnly t v (fun q x => if q = p then
        (ls.foldl (fun x l => x.place d.toNat wd.bytes false l ((List.range wd.regs).map (fun k =>
          (BitVec.ofNat 32 (scrNat b c (ea l + 4 * k) 4), false)))) x).settleTags d.toNat wd.regs (t.active cx g p) false else x)) ∧
    (i = .sts g bt wd d m → (bt = false → ∀ k < wd.regs, (t.pack p).tagB (d.toNat + k) = false) →
      ∃ v u, exec i s = .next u ∧ Retires i cx v u ∧ v = { t with blocks := v.blocks } ∧
        (∀ k, k ≠ (t.pack p).block → v.block k = t.block k) ∧
        (v.blockOf p).scratch = (ls.foldl (fun b l => (List.range wd.bytes).foldl (fun b k =>
          scrWrite b c (ea l + k) (((t.pack p).vget (d.toNat + k / 4) l).extractLsb' (8 * (k % 4)) 8)) b) b).scratch)) ∧
  (∀ (g : Guard) (bt : Bool) (wd : Width) (d : Fld) (m : MAddr) (i : Instr) (s : State) (cx : Cx)
      (t : State) (p : Nat),
    i = .lds g wd d m ∨ i = .sts g bt wd d m ∧ (bt = false → ∀ k < wd.regs, (t.pack p).tagB (d.toNat + k) = false) →
    Issues i s cx t → cx.packs = [p] → (t.pack p).indexB m = false → TrapsAtOnce t p cx.slot →
    let ls := lanesOf (t.active cx g p)
    let ea := fun l => (t.pack p).ea m l
    let top := (t.launchOf p).sRound
    let traps := fun (cause at' : Nat) =>
      exec i s = .next (settleEnded (takeTrap (t.leaveMerge (waiterOf p cx.slot)) p cx.slot cause (BitVec.ofNat 64 at')))
    (∀ l, ls.find? (fun l => ea l % wd.bytes != 0) = some l → traps cMISALIGN (ea l)) ∧
    ((∀ l ∈ ls, ea l % wd.bytes = 0) → ∀ b, (∃ l ∈ ls, top < ea l + wd.bytes ∧ b = max (ea l) top) →
      (∀ l ∈ ls, top < ea l + wd.bytes → b ≤ max (ea l) top) → traps cSCRATCH b))

/-- R105, R113, R117, R271, R273, R274, R275 and R362: ATOM, ACAS and FATOM of aligned, translated addresses that are not the
host's, outside a `.det` launch or in their turn, issue one operation for each member with its lanes' operands. The model's
reading: the destinations' tags are settled at issue (log 37). -/
def Obligations.AtomicsIssue : Prop := ∀ (g : Guard) (op : AtomOp) (fop : FatOp) (fmt : FatFmt) (wd : Width) (d : Fld) (m : MAddr),
  let lanes := fun (cx : Cx) (t : State) p => (lanesOf (t.active cx g p)).map (fun l => (⟨l, (t.pack p).ea m l⟩ : Acc))
  let ready := fun (cx : Cx) (t : State) (n : Nat) (regs : List Nat) ms =>
    (∀ p ∈ t.acting cx g, (t.pack p).indexB m = false ∧ (∀ r ∈ regs, (t.pack p).tagB r = false) ∧
      ∀ a ∈ lanes cx t p, a.va % n = 0 ∧ isHost ((mapOf ms p).get a.va) = false) ∧
    probeEach t cx.slot ((t.acting cx g).map (fun p => (p, (lanes cx t p).map (fun a => (a.va, true))))) = .ok ms ∧
    ((t.launchOf (cx.packs.headD 0)).det = false ∨ detTurn t (cx.packs.headD 0) = true)
  let regs := fun n => (List.range n).map (d.toNat + ·)
  let atom := fun (f : Option AtomOp) (cx : Cx) (t : State) (operand : Pack → Acc → AtomLane) ms =>
    issued t cx .ld (regs wd.regs) [] ((t.acting cx g).map (fun p =>
      (p, mapOf ms p, .atom f wd.bytes d.toNat ((lanes cx t p).map (operand (t.pack p))))))
  Starts (.atom g op wd d m) .ld (fun cx t => t.acting cx g)
    (fun cx t p x => x.settleTags d.toNat wd.regs (t.active cx g p) false) (fun cx t ops => ∃ ms,
      ready cx t wd.bytes (regs wd.regs) ms ∧
      ops = atom (some op) cx t (fun x a => ⟨a.lane, a.va, BitVec.ofNat 64 (x.vnat d.toNat wd.bytes a.lane), 0⟩) ms) ∧
  Starts (.acas g wd d m) .ld (fun cx t => t.acting cx g)
    (fun cx t p x => x.settleTags d.toNat wd.regs (t.active cx g p) false) (fun cx t ops => ∃ ms,
      ready cx t wd.bytes (regs (2 * wd.regs)) ms ∧
      ops = atom none cx t (fun x a => ⟨a.lane, a.va, BitVec.ofNat 64 (x.vnat (d.toNat + wd.regs) wd.bytes a.lane),
        BitVec.ofNat 64 (x.vnat d.toNat wd.bytes a.lane)⟩) ms) ∧
  Starts (.fatom g fop fmt d m) .st (fun cx t => t.acting cx g) (fun _ _ _ x => x) (fun cx t ops => ∃ ms,
    let f := fatFmt fmt
    ready cx t f.bytes [d.toNat] ms ∧
    ops = issued t cx .st [] [] ((t.acting cx g).map (fun p => (p, mapOf ms p, .adds ((lanes cx t p).map (fun a =>
      (⟨t.gIndex (t.pack p) a.lane, 0, 0, (mapOf ms p).get a.va, f, fop,
        if f = .f32 then (t.pack p).vget d.toNat a.lane
        else rne32 (f.ff.read (((t.pack p).vget d.toNat a.lane).toNat % 65536))⟩ : AddU)))
      ((t.launchOf p).det && fop == .add) false []))))

/-- R88 to R90, R206, R271 and R277: CMO and CMO.BMP by one pack: where the uniform condition fails nothing happens; over lines of
which at least one is addressable, all their pages answered, they issue one operation over those lines; over none they complete
at once, with every register and every byte of memory as it was. R86, R91 and R278: PREF asks in one operation, which no counter
counts, for the lines of all members that no rule drops; where there is none, or a prefetch to the L1 finds too few MSHRs free
beside those that a rejected load takes first (R87), it changes nothing. The model's readings: how a CMO asks for its pages, and
that a PREF is one operation (logs 28 and 29). -/
def Obligations.CacheMaintenanceIssues : Prop := ∀ (g : Guard) (form : CmoForm) (lvl : CmoLevel) (l2 : Bool) (d : Fld) (m : MAddr)
    (p : Nat),
  let go := fun (i : Instr) (f : CmoForm) (al : Nat) (lines : Nat → Pack → List Nat) =>
    let can := fun (t : State) => (lines ((t.pack p).ea m 0) (t.pack p)).filter (fun a => decide (a < 2 ^ 57))
    Starts i .st (fun _ _ => [p]) (fun _ _ _ x => x) (fun cx t ops =>
      cx.packs = [p] ∧ t.ucond cx g p = true ∧ (t.pack p).ea m 0 % al = 0 ∧
      let rs := answers t cx.slot p ((((can t).map (· / 4096)).eraseDups).map (fun a => (4096 * a, false)))
      can t ≠ [] ∧ (∀ r ∈ rs, r.2 ≠ .miss) ∧ ops = issued t cx .st [] [] [(p, pagesIn rs, .cmo f lvl (can t))]) ∧
    ∀ s cx t, Issues i s cx t → cx.packs = [p] →
      (t.ucond cx g p = false → Completes i s cx t) ∧
      (t.ucond cx g p = true → (t.pack p).region = none → canCount t cx p .st = true → (t.pack p).ea m 0 % al = 0 → can t = [] →
        t.mem.windows = [] → ∃ v, Completes i s cx v ∧ SameRegs t v ∧ v.mem = t.mem)
  go (.cmo g form lvl d m) form 1 (fun a x => rangeLines a (x.srcs d).toNat) ∧
  go (.cmoBmp g lvl d m) .inval 128 (fun a x => ((List.range 64).filter (fun j => (x.srcs d).getLsbD j)).filterMap (fun j =>
    if a + 128 * j < 2 ^ 64 then some (a + 128 * j) else none)) ∧
  ∀ s cx t, Issues (.pref g l2 m) s cx t → (∀ q ∈ t.acting cx g, (t.pack q).indexB m = false) →
    let first := cx.packs.headD 0
    let core := (t.pack first).core
    let ls := ((t.acting cx g).flatMap (fun q => (lanesOf (t.active cx g q)).filterMap (fun l =>
      prefLine t (.l1 core) (t.launchOf q).pasid ((t.pack q).ea m l)))).eraseDups
    let need := mshrNeed t core (ls.map (fun l => (128 * l, 128)))
    let freeM := 128 - mshrUsed (mshrWaits t core)
    let older := t.mshr.rejected.filter (fun e => (t.pack e.pack).core == core && ((t.pack e.pack).slot e.slot).stall == some .mshr)
    let fits := l2 = true ∨ need = 0 ∨ need ≤ freeM ∧ ∀ e ∈ older,
      core ∉ t.mshr.held ∧ (∀ f ∈ older, t.clk.toNat < f.since + 4096) ∧ freeM < mshrNeed t core e.foot
    (ls ≠ [] → fits → ∃ v, Completes (.pref g l2 m) s cx v ∧ v = { t with
      ops := t.ops ++ [{ id := t.nextOp, grp := t.nextOp, pack := some first, launch := (t.pack first).launch, k := none, body := .pref l2 ls }],
      nextOp := t.nextOp + 1 }) ∧
    (ls = [] ∨ ¬ fits → Completes (.pref g l2 m) s cx t)

/-- R82, R118, R270 and R407: the data of a scalar or vector load that nothing holds back arrive: the operation is complete, and its
destination lanes hold the bytes that its own older stores, its core's L1 or else the L2 give, the canonical NaN for poison. The
model's reading: a .glb load takes the L1's words only where it holds all of them (log 22). -/
def Obligations.LoadDataArrives : Prop := ∀ (s : State) (id p : Nat) (o : Op) (accs : List Acc) (n dst : Nat) (sx scalar : Bool)
    (pol : Policy), s.op id = some o → o.id = id → o.pack = some p → o.done = false →
  o.body = .load accs n dst sx scalar pol → (∀ a ∈ accs, (o.tr.at a.va).isSome) → heldBack s o o.foot = false →
  anyClosed s o.foot = false → s.mem.windows = [] → p < s.packs.length →
  let bus := o.foot.any (fun r => isBus r.1)
  let core := (s.pack p).core
  let atL2 := pol == .glb && !l1Holds s core o.foot
  let parts := fun (a : Acc) => loadParts s o core atL2 a.va (o.tr.get a.va) n
  ∃ u, exec (if bus then .hostPeerLoadCompletion id else .loadDataReturn id []) s = .next u ∧ Finished u id ∧
    (scalar = false → (u.pack p).v = (accs.foldl (fun x a => x.place dst n sx a.lane (parts a)) (s.pack p)).v ∧
      (u.pack p).s = (s.pack p).s) ∧
    (scalar = true → (u.pack p).v = (s.pack p).v ∧ ∀ a, accs = [a] →
      let bad := (parts a).any (·.2)
      let v := ofBytes ((parts a).flatMap (fun w => leBytes w.1.toNat (if w.2 then 4 else min n 4)))
      (u.pack p).s = (s.pack p).s.set dst (if sx && !bad
        then extend (if n = 1 then .i8 else if n = 2 then .i16 else if n = 4 then .i32 else .i64) v else BitVec.ofNat 64 v))

/-- R82, R96 to R101, R109, R111, R281 and R284: the data of an ILD, ILDG, HFIND or NBR that nothing holds back arrive: the
operation is complete and each lane's destination registers hold, channel by channel, the value and with ILDG the derivatives
interpolated between the elements that its own older stores, its core's L1 or else the L2 give; point and count of the cell's
bucket, or all ones and 0; or the point of each neighbouring cell, all ones where there is none. A lane that read poison
receives the canonical NaN. The model's readings: a .glb access takes the L1's words only where it holds all of them, which
buckets HFIND and NBR ask for, and that poison takes every register of its lane (logs 22, 25 and 30). -/
def Obligations.GridDataArrives : Prop := ∀ (s : State) (id p : Nat) (o : Op), s.op id = some o → o.id = id → o.pack = some p → o.done = false →
  heldBack s o o.foot = false → anyClosed s o.foot = false → s.mem.windows = [] → p < s.packs.length →
  let core := (s.pack p).core
  let arrives := fun (lanes : List GLane) (dst : Nat) (bad : GLane → Bool) (ws : GLane → List W32) =>
    ∃ u, exec (if o.foot.any (fun r => isBus r.1) then .hostPeerLoadCompletion id else .loadDataReturn id []) s = .next u ∧ Finished u id ∧
      (u.pack p).s = (s.pack p).s ∧
      (u.pack p).v = (lanes.foldl (fun x l => (ws l).zipIdx.foldl (fun x w =>
        x.vset (dst + w.2) l.lane (if bad l then 0x7FC00000 else w.1)) x) (s.pack p)).v
  (∀ d ord grad lanes dst, o.body = .grid d ord grad lanes dst →
    let n := gridSpan d.raw
    let elem := fun m c => readElem d.raw m (ofBytes ((List.range n).map (fun i =>
      loadByte s o core false (gridAddr d.raw m c + i) (o.tr.get (gridAddr d.raw m c) + i))))
    arrives lanes dst
      (fun l => (laneAddrs d.raw ord l.x).any (fun va => (List.range n).any (fun i => loadPoison s o core false (va + i) (o.tr.get va + i))))
      (fun l => (List.range (gChan d.raw)).flatMap (fun c =>
        let v := gridRead d.raw ord l.x c elem
        if grad then v.1 :: v.2 else [v.1]))) ∧
  let read := fun (d : DSlot) (cells : List (Option (List Int))) => (probePoison s o.tr (cells.flatMap (fun m => match m with
    | some c => readUpTo (fun a => isKey c (l2Nat s o (a + 8) 8)) (probeAddrs d.raw c)
    | none => []))).isSome
  let bucket := fun (d : DSlot) (m : Option (List Int)) =>
    m.bind (fun c => (probeAddrs d.raw c).find? (fun a => isKey c (l2Nat s o (a + 8) 8)))
  (∀ d lanes dst, o.body = .hfind d lanes dst → arrives lanes dst (fun l => read d [cellOf d.raw l.x])
    (fun l => match bucket d (cellOf d.raw l.x) with
      | some a => [BitVec.ofNat 32 (l2Nat s o a 4), BitVec.ofNat 32 (l2Nat s o (a + 4) 4)]
      | none => [0xFFFFFFFF, 0])) ∧
  (∀ d lanes dst, o.body = .nbr d lanes dst → arrives lanes dst (fun l => read d (nearCells d.raw l.x))
    (fun l => (nearCells d.raw l.x).map (fun m => match bucket d m with
      | some a => BitVec.ofNat 32 (l2Nat s o a 4)
      | none => 0xFFFFFFFF)))

/-- R79 to R81, R115, R269: the bytes of a store for one word of device memory, each address once, that nothing holds back, are
registered at the L2: each reads there as stored, every other byte reads as before, and the store is complete if it had no
others. R121, R133 and R426: the host's flush read and a peer's acknowledge perform what an operation stores there, and leave
device memory as it was. The model's reading: which event performs bytes at the host and which at a peer (log 91). -/
def Obligations.StoresComplete : Prop :=
  (∀ (s : State) (id word : Nat) (o : Op) (bs : List (Nat × BitVec 8)), Inv s →
    let here := fun a => !isBus a && a / 4 == word
    readyBytes s id here = some (o, bs) → o.id = id → (bs.map (·.1)).Nodup → s.mem.windows = [] →
    (match o.body with | .store _ _ => True | _ => False) →
    ∃ u, exec (.storeRegister id word []) s = .next u ∧
      (∀ b ∈ bs, memByte u b.1 = b.2) ∧ (∀ a, a ∉ bs.map (·.1) → memByte u a = memByte s a) ∧
      (∀ p, (u.pack p).v = (s.pack p).v ∧ (u.pack p).s = (s.pack p).s) ∧
      (bs.length = o.bytes.length → Finished u id)) ∧
  (∀ (s : State) (id : Nat) (o : Op) (bs : List (Nat × BitVec 8)),
    (bs.map (·.1)).Nodup → s.mem.windows = [] → Memory.wf s.mem.ram = true → o.id = id → (match o.body with | .store _ _ => True | _ => False) →
    let done := fun (i : Instr) => ∃ u, exec i s = .next u ∧ (∀ b ∈ bs, ramRead u b.1 = b.2) ∧
      (∀ a, a ∉ bs.map (·.1) → ramRead u a = ramRead s a) ∧ u.mem.l2 = s.mem.l2 ∧ u.mem.l1 = s.mem.l1
    (readyBytes s id isHost = some (o, bs) → done (.hostFlushReadCompletion id)) ∧
    (readyBytes s id isPeer = some (o, bs) → s.op id = some o → done (.peerAcknowledge id)))

/-- R117, R273 and R274: one lane of an atomic is performed where it may be: its register receives the value that memory held,
memory the new value of its operation (nothing for an ACAS that does not match), and every other byte of memory stays. R102 and
R104: an add that is not held, whose line has no open window, is applied when it arrives: the element becomes the exact sum
rounded once (or the lesser or greater), and the add is taken out of its operation. The model's reading: the order of the adds
of one instruction (log 99). -/
def Obligations.AtomicsComplete : Prop :=
  (∀ (s : State) (id p lane n d ph : Nat) (op : Option AtomOp) (o : Op) (ls : List AtomLane) (l : AtomLane),
    s.op id = some o → o.id = id → o.pack = some p → o.body = .atom op n d ls → readyLane s o lane = some (l, ph) →
    s.mem.windows = [] → Inv s → n = 4 ∨ n = 8 → lane < 16 → p < s.packs.length →
    16 * (d + 2) ≤ (s.pack p).v.length → poisoned s ph = false → poisoned s (ph + n - 1) = false →
    let old := memNat s ph n
    let put := fun (u : State) => (u.pack p).vget d lane = BitVec.ofNat 32 old ∧
      (∀ r q, q < 16 → ¬ (q = lane ∧ (r = d ∨ n = 8 ∧ r = d + 1)) → (u.pack p).vget r q = (s.pack p).vget r q) ∧
      memNat u ph n = (atomWrite op n old l.v.toNat l.cmp.toNat).getD old % 2 ^ (8 * n) ∧
      (∀ a, (a < ph ∨ ph + n ≤ a) → memByte u a = memByte s a)
    (isBus ph = false → ∃ u, exec (.atomicPerform id lane) s = .next u ∧ put u) ∧
    (isHost ph = true → (∃ u, exec (.hostAtomicopCompletion id lane true) s = .next u ∧ put u) ∧
      ∃ u, exec (.hostAtomicopCompletion id lane false) s = .next u ∧ (u.pack p).vget d lane = 0xFFFFFFFF ∧
        u.mem = s.mem ∧ ∃ e ∈ (u.pack p).pending, e.cause = cXLATE)) ∧
  (∀ (s : State) (id k p : Nat) (o : Op) (u : AddU) (us : List AddU) (sp : Bool) (beg : List Nat),
    s.op id = some o → o.id = id → o.pack = some p → o.body = .adds us false sp beg → readyAdd s o k = some u → isBus u.ph = false →
    s.mem.windows = [] → Inv s →
    let e := u.fmt.ff.read (memNat s u.ph u.fmt.bytes)
    let r := match u.op with | .add => fAdd .rn e (f32 u.val) | .min => fMin e (f32 u.val) | .max => fMax e (f32 u.val)
    ∃ w, exec (.splatAddArrival id k) s = .next w ∧
      memNat w u.ph u.fmt.bytes = u.fmt.ff.write .rn false 0 r % 2 ^ (8 * u.fmt.bytes) ∧
      (∀ a, (a < u.ph ∨ u.ph + u.fmt.bytes ≤ a) → memByte w a = memByte s a) ∧
      (us.length = 1 → Finished w id) ∧ (us.length ≠ 1 → ∃ q, w.op id = some q ∧ q.body = .adds (us.eraseIdx k) false sp beg))

/-- R102, R105, R106, R108 and R366: a held add that reaches a line without a window opens one; in its own launch's window it joins
the batch, a full batch of 16 being applied first; a held add of another launch closes the window, whose batch is applied, and
opens its own, which counts as an intrusion where its launch is `.det`; an add of a launch that is not `.det` that reaches a
`.det` launch's window is kept until it closes, counted and reported; any other add that is not held closes the window and is
applied. Memory changes by the batch applied and by nothing else. A batch is applied in ascending order of its keys, equal keys
in their order of arrival; and a store that registers in a line with a window closes it first, the batch and then the intruding
adds being applied. The model's readings: the order of adds of one instruction, the FAULT field of the report, and a held add
into another `.det` launch's window as an intrusion (logs 36, 99 and 121). -/
def Obligations.HeldAddWindows : Prop :=
  (∀ us : List AddU, (sortAdds us).Perm us ∧ (sortAdds us).Pairwise (fun a b => keyLe a b = true) ∧
    ∀ g k c, let same := fun (u : AddU) => u.g == g && u.k == k && u.c == c
      (sortAdds us).filter same = us.filter same) ∧
  (∀ (s : State) (id k p : Nat) (o : Op) (u : AddU) (us : List AddU) (held sp : Bool) (beg : List Nat),
    s.op id = some o → o.id = id → o.pack = some p → o.body = .adds us held sp beg → readyAdd s o k = some u → isBus u.ph = false →
    Inv s → 2 ≤ us.length → recordsFull s 0 = false → (s.launch o.launch).part < s.parts.length →
    let line := lineOf u.ph
    let det := (s.launch o.launch).det
    let q := (s.launch o.launch).part
    let leaves := fun (before : State) (x : Window) (counts : Bool) => ∃ w, exec (.splatAddArrival id k) s = .next w ∧
      mapGet w.mem.windows line = some x ∧ (∀ a, memByte w a = memByte before a) ∧
      (w.part q).intrude = if counts = true ∧ (s.part q).intrude ≠ 0xFFFFFFFF then (s.part q).intrude + 1 else (s.part q).intrude
    (held = true → mapGet s.mem.windows line = none → leaves s ⟨o.launch, det, [u], []⟩ false) ∧
    ∀ x, mapGet s.mem.windows line = some x →
      (held = true → x.launch = o.launch → x.batch.length < 16 → leaves s { x with batch := x.batch ++ [u] } false) ∧
      (held = true → x.launch = o.launch → 16 ≤ x.batch.length → leaves (applyBatch s x.batch) { x with batch := [u] } false) ∧
      (held = true → x.launch ≠ o.launch → ¬ (x.det = true ∧ det = false ∧ u.op = .add) →
        leaves (closeWindow s line) ⟨o.launch, det, [u], []⟩ det) ∧
      ((held = true → x.launch ≠ o.launch) → x.det = true → det = false → u.op = .add → leaves s { x with intr := x.intr ++ [u] } true) ∧
      (held = false → ¬ (x.det = true ∧ det = false ∧ u.op = .add) →
        ∃ w, exec (.splatAddArrival id k) s = .next w ∧ ∀ a, memByte w a = memByte (applyAdd (closeWindow s line) u) a)) ∧
  ∀ (s : State) (id word : Nat) (o : Op) (bs : List (Nat × BitVec 8)) (x : Window), Inv s →
    readyBytes s id (fun a => !isBus a && a / 4 == word) = some (o, bs) → o.id = id → (bs.map (·.1)).Nodup →
    (match o.body with | .store _ _ => True | _ => False) → s.mem.windows = [(word / 32, x)] →
    ∃ u, exec (.storeRegister id word []) s = .next u ∧ mapGet u.mem.windows (word / 32) = none ∧ (∀ b ∈ bs, memByte u b.1 = b.2) ∧
      ∀ a, a ∉ bs.map (·.1) → memByte u a = memByte (x.intr.foldl applyAdd (applyBatch s x.batch)) a

/-- R87, R89, R91, R92, R278 and R396: a cache-maintenance operation whose pages are answered and which nothing holds back
completes, with its table's effect on the L1s and the L2: no byte but those of lines that it invalidates in the L2 changes. A
PREF completes, and a hardware prefetch that R91 admits near an access is performed: each brings its line into the L2 and
changes no byte that memory reads as; the two age holds note their holder. The model's readings: a hardware prefetch is one
event a line, which line of a full set departs, and near which access a prefetch may fall (logs 29 and 96). -/
def Obligations.CacheEvents : Prop := ∀ (s : State) (id p : Nat) (o : Op) (form : CmoForm) (lvl : CmoLevel) (ls : List Nat), Inv s →
  s.mem.windows = [] →
  let brings := fun (u : State) (line : Nat) => ∀ i, i < 32 → isBus (4 * (32 * line + i)) = false →
    mapGet s.mem.poison (32 * line + i) = none → (mapGet u.mem.l2 (32 * line + i)).isSome = true
  (s.op id = some o → o.id = id → o.pack = some p → o.done = false → o.body = .cmo form lvl ls → s.merges = [] → s.mshr.turned = [] →
    (∀ l ∈ ls, (o.tr.at l).isSome) → heldBack s o o.foot = false → anyClosed s o.foot = false →
    let mine := linesOf o.foot
    ∃ u, exec (.cmoComplete id) s = .next u ∧ Finished u id ∧ SameRegs s u ∧ u.mem.owner = s.mem.owner ∧
      (lvl ≠ .mem → u.mem.l2 = s.mem.l2 ∧ u.mem.ram = s.mem.ram) ∧
      (form ≠ .inval ∨ lvl ≠ .mem → ∀ a, memByte u a = memByte s a) ∧
      (form = .clean → lvl = .mem → ∀ w v, w / 32 ∈ mine → mapGet u.mem.l2 w ≠ some (.dirty v)) ∧
      (form = .inval → lvl = .mem → ∀ e, e ∈ u.mem.l2 ↔ e ∈ s.mem.l2 ∧ e.1 / 32 ∉ mine) ∧
      (form = .clean → u.mem.l1 = s.mem.l1) ∧
      (form ≠ .clean → lvl ≠ .l1 → ∀ e, e ∈ u.mem.l1 ↔ e ∈ s.mem.l1 ∧ e.1 / 256 / 32 ∉ mine) ∧
      (form ≠ .clean → lvl = .l1 → ∀ e, e ∈ u.mem.l1 ↔ e ∈ s.mem.l1 ∧ ¬ (e.1 / 256 / 32 ∈ mine ∧ e.1 % 256 = (s.pack p).core))) ∧
  (∀ l2, s.op id = some o → o.id = id → o.pack = some p → o.done = false → o.body = .pref l2 ls →
    anyClosed s (ls.map (fun l => (128 * l, 128))) = false →
    ∃ u, exec (.loadDataReturn id []) s = .next u ∧ Finished u id ∧ SameRegs s u ∧ (∀ a, memByte u a = memByte s a) ∧
      ∀ l, ls = [l] → brings u l) ∧
  (∀ c pasid va line, prefLine s (match c with | some c => .l1 c | none => .l2) pasid va = some line → prefetchNear s c line = true →
    ∃ u, exec (.hardwarePrefetch c pasid va) s = .next u ∧ u = { s with mem := u.mem } ∧ (∀ a, memByte u a = memByte s a) ∧ brings u line) ∧
  (∀ core e, s.mshr.rejected.find? (fun e => (s.pack e.pack).core == core && ((s.pack e.pack).slot e.slot).stall == some .mshr) = some e →
    e.since + 4096 ≤ s.clk.toNat → core ∉ s.mshr.held →
    exec (.mshrAgeHold core) s = .next { s with mshr := { s.mshr with held := s.mshr.held ++ [core] } }) ∧
  (∀ t, s.mshr.turned.find? (fun t => s.waits t.who) = some t → t.since + 4096 ≤ s.clk.toNat → 256 ∉ s.mshr.held →
    exec .mergeTableAgeHold s = .next { s with mshr := { s.mshr with held := s.mshr.held ++ [256] } })

/-! ### Interpolating memory -/

/-- R85, R93, R94 and R279: GDLD of an aligned, translated record that is legal, with nothing of the members in its way and an MSHR
free for what it misses, issues one operation for the members, holding the record as read. R100 to R105, R110 to R112 and R280
to R285: ILD, ILDG, ISPL, HINS, HFIND, NBR and HFRAME through a valid descriptor slot of the right layout, with coordinates in
range and untagged, their addresses translated and, where they write, in device memory, outside a `.det` launch or in their
turn, issue one operation for each member (HFRAME one) with the lanes' coordinates. The model's readings: an instruction of more
than 128 lines takes all MSHRs, HFIND and NBR ask for all eight buckets' pages, and HINS settles its tags at issue (logs 24, 25
and 37). -/
def Obligations.GridInstructionsIssue : Prop :=
  (∀ (g : Guard) (d : Fld) (m : MAddr) (p : Nat),
    Starts (.gdld g d m) .ld (fun _ _ => [p]) (fun _ _ _ x => x) (fun cx t ops => ∃ rest mp,
      t.acting cx g = p :: rest ∧ (t.pack p).ea m 0 % 64 = 0 ∧
      probe t (.l1 (t.pack p).core) (t.launchOf p).part (t.launchOf p).pasid (waiterOf p cx.slot) [((t.pack p).ea m 0, false)] = .ok mp ∧
      issueWaits t p cx.packs mp ((t.pack p).ea m 0) 64 = false ∧ t.mshr.rejected = [] ∧
      (let core := (t.pack p).core
       mshrUsed (mshrWaits t core) + mshrNeed t core [(mp.get ((t.pack p).ea m 0), 64)] ≤ 128) ∧ mapGet t.mem.windows (lineOf (mp.get ((t.pack p).ea m 0))) = none ∧
      (let va := (t.pack p).ea m 0
         ∀ i < 64, loadPoison t (t.nextLoad p [p]) (t.pack p).core false (va + i) (mp.get (va + i)) = false) ∧
      let raw : BitVec 512 := BitVec.ofNat 512 (issueRead t p mp ((t.pack p).ea m 0) 64)
      gridLegal raw = true ∧ ops = issued t cx .ld [] [] [(p, mp, .gdld d.toNat raw ((t.pack p).ea m 0) cx.packs)])) ∧
  (∀ (g : Guard) (o : OrdSel) (d a b c : Fld) (ds : DSlot) (p : Nat),
    let r := ds.raw
    let n := gDim r
    let co := regsFrom a.toNat n
    let at' := fun (cx : Cx) (t : State) (pt : Option Nat) q => gridLanes t cx g a.toNat n pt q
    let turn := fun (cx : Cx) (t : State) => (t.launchOf (cx.packs.headD 0)).det = false ∨ detTurn t (cx.packs.headD 0) = true
    let plain := fun (cx : Cx) (t : State) (tagged : List Nat) => ∀ q ∈ t.acting cx g, ∀ k ∈ tagged, (t.pack q).tagB k = false
    let inside := fun (cx : Cx) (t : State) => ∀ q ∈ t.acting cx g, ∀ l ∈ at' cx t none q, gridFault r (ordOf r o) l.x = none
    let pages := fun (cx : Cx) (t : State) (vas : GLane → List Nat) (pt : Option Nat) (w : Bool) (pre : List Nat) ms =>
      probeEach t cx.slot ((t.acting cx g).map (fun q => (q, (pre ++ (at' cx t pt q).flatMap vas).map (fun v => (v, w))))) = .ok ms ∧
      (w = true → ∀ q ∈ t.acting cx g, ∀ v ∈ pre ++ (at' cx t pt q).flatMap vas, isBus ((mapOf ms q).get v) = false)
    let each := fun (cx : Cx) (t : State) ms (body : Nat → Body) => (t.acting cx g).map (fun q => (q, mapOf ms q, body q))
    let tap := fun (l : GLane) => laneAddrs r (ordOf r o) l.x
    let load := fun (grad : Bool) (dst : List Nat) (cx : Cx) (t : State) ops => ∃ ms,
      slotOf cx t b (fun r => gLayout r != 3) (fun r => regsFrom a.toNat (gDim r) ++
        regsFrom d.toNat (gChan r * (if grad then gDim r + 1 else 1))) = .ok ds ∧
      inside cx t ∧ plain cx t co ∧ pages cx t tap none false [] ms ∧ t.mshr.rejected = [] ∧
      (let core := (t.pack (cx.packs.headD 0)).core
       mshrUsed (mshrWaits t core) + mshrNeed t core ((t.acting cx g).flatMap (fun q => (at' cx t none q).flatMap (fun l =>
         (tap l).map (fun v => ((mapOf ms q).get v, gridSpan r))))) ≤ 128) ∧
      ops = issued t cx .ld dst [] (each cx t ms (fun q => .grid ds (ordOf r o) grad (at' cx t none q) d.toNat))
    let find := fun (near : Bool) (dst : List Nat) (cx : Cx) (t : State) ops => ∃ ms,
      slotOf cx t b (fun r => gLayout r == 3) (fun r => regsFrom a.toNat (gDim r) ++
        regsFrom d.toNat (if near then 3 ^ gDim r else 2)) = .ok ds ∧
      plain cx t co ∧ pages cx t (fun l => probePages r near [l]) none false [] ms ∧ t.mshr.rejected = [] ∧
      (let core := (t.pack (cx.packs.headD 0)).core
       mshrUsed (mshrWaits t core) + mshrNeed t core ((t.acting cx g).flatMap (fun q => (at' cx t none q).flatMap (fun l =>
         (probePages r near [l]).map (fun v => ((mapOf ms q).get v, 16))))) ≤ 128) ∧
      ops = issued t cx .ld dst [] (each cx t ms (fun q => if near then .nbr ds (at' cx t none q) d.toNat else .hfind ds (at' cx t none q) d.toNat))
    Starts (.ild g o d a b) .ld (fun cx t => t.acting cx g) (fun _ _ _ x => x) (fun cx t ops =>
      load false (regsFrom d.toNat (gChan r)) cx t ops) ∧
    Starts (.ildg g o d a b) .ld (fun cx t => t.acting cx g) (fun _ _ _ x => x) (fun cx t ops =>
      load true (regsFrom d.toNat (gChan r * (n + 1))) cx t ops) ∧
    Starts (.hfind g d a b) .ld (fun cx t => t.acting cx g) (fun _ _ _ x => x) (fun cx t ops => find false (regsFrom d.toNat 2) cx t ops) ∧
    Starts (.nbr g d a b) .ld (fun cx t => t.acting cx g) (fun _ _ _ x => x) (fun cx t ops => find true (regsFrom d.toNat (3 ^ n)) cx t ops) ∧
    Starts (.ispl g o a b c) .st (fun cx t => t.acting cx g) (fun _ _ _ x => x) (fun cx t ops => ∃ ms,
      let us := fun q => (at' cx t none q).flatMap (fun l =>
        (splatLane r (ordOf r o) l.x (fun ch => (t.pack q).vget (c.toNat + ch) l.lane)).map (fun e =>
          (⟨t.gIndex (t.pack q) l.lane, e.1, e.2.1, (mapOf ms q).get (gridAddr r e.2.2.1 e.2.1), gElem r, .add, e.2.2.2⟩ : AddU)))
      slotOf cx t b (fun r => gLayout r != 3 && gElem r != .l6)
        (fun r => regsFrom a.toNat (gDim r) ++ regsFrom c.toNat (gChan r)) = .ok ds ∧
      inside cx t ∧ plain cx t (co ++ regsFrom c.toNat (gChan r)) ∧ pages cx t tap none true [] ms ∧ turn cx t ∧
      (∀ q ∈ t.acting cx g, us q ≠ []) ∧
      ops = issued t cx .st [] [] (each cx t ms (fun q => .adds (us q) (gAcc r || (t.launchOf q).det) true []))) ∧
    Starts (.hins g d a b c) .ld (fun cx t => t.acting cx g) (fun cx t q x => x.settleTags d.toNat 2 (t.active cx g q) false)
      (fun cx t ops => ∃ ms,
        slotOf cx t b (fun r => gLayout r == 3) (fun r => regsFrom a.toNat (gDim r) ++ c.toNat :: regsFrom d.toNat 2) = .ok ds ∧
        plain cx t (co ++ [c.toNat]) ∧ pages cx t (fun l => probePages r false [l]) (some c.toNat) true [ds.home] ms ∧ turn cx t ∧
        ops = issued t cx .ld (regsFrom d.toNat 2) [] (each cx t ms (fun q => .hins ds (at' cx t (some c.toNat) q) d.toNat))) ∧
    Starts (.hframe g d b) .st (fun _ _ => [p]) (fun _ _ _ x => x) (fun cx t ops => ∃ rest mp,
      t.acting cx g = p :: rest ∧ (∀ q ∈ cx.packs, (t.pack q).region = none) ∧
      slotOf cx t b (fun r => gLayout r == 3) (fun _ => []) = .ok ds ∧
      probe t (.l1 (t.pack p).core) (t.launchOf p).part (t.launchOf p).pasid (waiterOf p cx.slot)
        ((ds.home, true) :: pagesOf (gBase r) (16 * 2 ^ gHbits r) true) = .ok mp ∧
      ops = issued t cx .st [] [d.toNat - 384] [(p, mp, .hframe b.toNat ds cx.packs (d.toNat - 384)
        (lowLane (t.path p cx.slot).mask) none)]))

/-- R93, R110, R112, R279, R283 and R285: GDLD's record goes whole into its slot with its home address, and the GDLD is complete; a
lane of HINS that is the lowest left and that nothing holds back runs its whole procedure, its old point and status are written,
and the HINS is complete with its last lane; HFRAME applies its step, writes its scalar in every member and is complete, or,
where the step clears the table, then clears the buckets one by one and is complete with the last. The model's reading: a lane
of HINS is one step, and HFRAME clears bucket by bucket in any order (log 27). -/
def Obligations.GridEvents : Prop := ∀ (s : State) (id p : Nat) (o : Op), s.op id = some o → o.id = id → o.pack = some p → o.done = false →
  p < s.packs.length → s.mem.windows = [] →
  (∀ slot raw va ps, o.body = .gdld slot raw va ps → (s.pack p).block < s.blocks.length → anyClosed s o.foot = false →
    ∃ u, exec (.gdldDataArrival id) s = .next u ∧ Finished u id ∧
      (u.block (s.pack p).block).slots = (s.blockOf p).slots.set slot (some ⟨raw, va⟩) ∧
      ∀ b, b ≠ (s.pack p).block → (u.block b).slots = (s.block b).slots) ∧
  (∀ d lanes (l : GLane) dst, o.body = .hins d lanes dst → lanes.find? (fun q => q.lane == l.lane) = some l → l.lane < 16 →
    16 * (dst + 2) ≤ (s.pack p).v.length →
    let mine := probePages d.raw false [l]
    let foot := (o.tr.get d.home, 64) :: mine.map (fun a => (o.tr.get a, 16))
    lanes.takeWhile (fun q => q.lane != l.lane) = [] →
    heldBack s o foot = false → anyClosed s foot = false → awaitsDet s o = false → hinsPoison s o.tr d l.x = none →
    let r := match cellOf d.raw l.x with
      | none => (s, (0xFFFFFFFF : W32), 3)
      | some c => hinsProbe s (s.pack p).core o.tr d c l.p (probeAddrs d.raw c)
    let pend := (BitVec.ofNat 64 (memNat r.1 (o.tr.get d.home + 56) 8)).getLsbD 43
    ∃ u, exec (.hinsBucketStep id l.lane) s = .next u ∧ (u.pack p).vget dst l.lane = r.2.1 ∧
      (u.pack p).vget (dst + 1) l.lane = BitVec.ofNat 32 (r.2.2 + if pend then 256 else 0) ∧ u.mem = r.1.mem ∧
      (lanes = [l] → Finished u id)) ∧
  (∀ slot d packs sd ln, o.body = .hframe slot d packs sd ln none → heldBack s o o.foot = false → anyClosed s o.foot = false →
    (∀ q ∈ packs, q < s.packs.length ∧ sd < (s.pack q).s.length) →
    let dw : W64 := BitVec.ofNat 64 (memNat s (o.tr.get d.home + 56) 8)
    let r := coarsen (gHbits d.raw) dw
    ∃ u, exec (.hframeApply id) s = .next u ∧ (∀ q ∈ packs, (u.pack q).sget sd =
        BitVec.ofNat 64 ((if r.2.1 then 1 else 0) + (if r.2.2 then 2 else 0) + 256 * bitsAt r.1 32 4 + 2 ^ 32 * bitsAt dw 0 32)) ∧
      (r.2.1 = false → Finished u id) ∧
      (r.2.1 = true → ∃ q, u.op id = some q ∧ q.body = .hframe slot d packs sd ln (some []))) ∧
  (∀ slot d packs sd ln gone, o.body = .hframe slot d packs sd ln (some gone) → bucketsLeft d gone ≠ [] → Inv s →
    let place := fun bucket => o.tr.get (gBase d.raw + 16 * bucket)
    (∀ b ∈ bucketsLeft d gone, closed s (lineOf (place b)) = false) →
    ∃ u, ∃ bucket ∈ bucketsLeft d gone, exec (.hframeApply id) s = .next u ∧ memNat u (place bucket) 16 = 0xFFFFFFFF ∧
      (∀ a, (a < place bucket ∨ place bucket + 16 ≤ a) → memByte u a = memByte s a) ∧ SameRegs s u ∧
      (if (bucketsLeft d gone).length = 1 then Finished u id
       else ∃ q, u.op id = some q ∧ q.body = .hframe slot d packs sd ln (some (gone ++ [bucket]))))

/-! ### Barriers and the courier -/

/-- R148 to R151, R290 and R291: outside a `.det` launch BINIT, BARR, BJOIN and BLEAVE of a pack change the barrier as their rules
say, BARR taking its reference phase first; a phase that can end ends at once, and no slot of the block waits for it any longer.
BTEST reads whether the phase referred to has ended, BWAIT passes then and blocks until then. The model's reading: the end of a
phase clears the stall of a waiting BWAIT (log 46). -/
def Obligations.BarrierInstructions : Prop := ∀ (g : Guard) (d a : Fld) (imm : BitVec 32) (i : Instr) (s : State) (cx : Cx) (t : State)
    (p : Nat), Issues i s cx t → cx.packs = [p] → t.ucond cx g p = true → (t.launchOf p).det = false →
  (t.pack p).block < t.blocks.length →
  let acts := fun (n : Nat) (refs : List (BitVec 32)) (f : Bar → Bar) => n < (t.blockOf p).bars.length →
    let b := f (t.bar p n)
    let ends := b.expect ≤ b.arr ∧ 0 < b.arr
    ∃ v, Completes i s cx v ∧ v = { t with packs := v.packs, blocks := v.blocks } ∧ SameRegs t v ∧ (v.pack p).refs = refs ∧
      v.bar p n = (if ends then { b with phase := b.phase + 1, arr := 0 } else b) ∧
      (∀ k, k ≠ n → v.bar p k = t.bar p k) ∧ (∀ k, k ≠ (t.pack p).block → v.block k = t.block k) ∧
      (ends → ∀ q k, (t.pack q).block = (t.pack p).block → ((v.pack q).slot k).stall ≠ some (.bwait n))
  let refs := (t.pack p).refs
  let ended := fun (f : Fld) => (t.bar p f.toNat).phase ≠ nth 0 refs f.toNat
  (i = .binit g d imm → imm ≠ 0 → imm.toNat ≤ 65535 → acts d.toNat refs (fun b => { b with expect := imm.toNat, arr := 0 })) ∧
  (i = .barr g a → acts a.toNat (refs.set a.toNat (t.bar p a.toNat).phase) (fun b => { b with arr := b.arr + 1 })) ∧
  (i = .bjoin g a → acts a.toNat refs (fun b => { b with expect := min 65535 (b.expect + 1) })) ∧
  (i = .bleave g a → acts a.toNat refs (fun b => { b with expect := b.expect - 1 })) ∧
  (i = .btest g d a → ∃ v, Completes i s cx v ∧ PacksOnly t v (fun q x => if q = p then x.sset (d.toNat - 384) (if ended a then 1 else 0) else x)) ∧
  (i = .bwait g a → ended a → Completes i s cx t) ∧
  (i = .bwait g a → ¬ ended a → exec i s = .next (t.modSlot p cx.slot (fun sl => sl.block (.bwait a.toNat) t.clk.toNat)))

/-- R136 to R147, R286 to R288 and R362: CPY and CPYR of a legal, translated box issue one courier copy of the waybill's bytes,
counted in the pack with the lowest active lane, write its promise in every member and change no memory; one of an empty box
that reads no guard is complete at once. The promise is a free value, any pitch of the scratchpad is taken, and the owner of a
region's first page keeps its sequence counter (logs 4, 34 and 35). -/
def Obligations.CopiesIssue : Prop := ∀ (g : Guard) (out late gen : Bool) (fmt : RFmt) (gslot : BitVec 3) (bar : BitVec 4) (zs : BitVec 7)
    (org ext d : Fld) (m : MAddr) (s : State) (cx : Cx) (t : State),
  let go := fun (i : Instr) (out : Bool) (red : Option RFmt) => Issues i s cx t →
    CopyIssues i g out red late gen gslot bar zs org ext d m cx t (exec i s)
  go (.cpy g out late gen gslot bar zs org ext d m) out none ∧ go (.cpyr g fmt late gen gslot bar zs org ext d m) false (some fmt)

/-- R123, R138, R143, R145 to R147, R149, R153 and R417: a copy that nothing holds back moves its box, arrives at its barrier and
completes; a held one is let go or discarded by its guard slot; a reducing copy's part is applied in its region's order; a copy
late past its promise raises LATECOURIER in the path of its leader lane where that waits in SLPT or BWAIT, else leaves it
waiting for that path's next header; a sequence entry whose two numbers are equal is freed. The model's choices: a copy's bytes
move in one step, a discarded copy completes at once, and a reducing copy closes and prepares its whole range with its first
part (logs 43, 45 and 114). -/
def Obligations.CourierEvents : Prop := ∀ (s : State) (id p : Nat) (o : Op) (c : Copy), s.op id = some o → o.pack = some p →
  o.body = .copy c → o.done = false → c.discarded = false → s.mem.windows = [] → p < s.packs.length →
  (s.pack p).block < s.blocks.length → c.bar < (s.blockOf p).bars.length →
  let ranges := physRanges o.tr (boxRanges c.wb (boxRowsOf c.wb c.org c.ext))
  let onTime := c.late = true → s.clk ≤ c.promise
  (c.held = false → queuedBehind s o = false → onTime → c.red = none → heldBack s o ranges = false → anyClosed s ranges = false →
    (∀ r ∈ ranges, s.cutOff o r.1 = false) →
    let t := if c.out then copyOut s o p c else copyIn s o p c
    let b := { s.bar p c.bar with arr := (s.bar p c.bar).arr + 1 }
    ∃ u, exec (.copyComplete id) s = .next u ∧ Finished u id ∧ SameRegs s u ∧ u.mem = t.mem ∧
      (u.blockOf p).scratch = (t.blockOf p).scratch ∧
      u.bar p c.bar = (if b.expect ≤ b.arr ∧ 0 < b.arr then { b with phase := b.phase + 1, arr := 0 } else b)) ∧
  (c.held = false → queuedBehind s o = false → onTime → c.red.isSome = true → c.parts.all (·.applied) = true →
    ∃ u, exec (.copyComplete id) s = .next u ∧ Finished u id ∧ SameRegs s u ∧ u.mem = s.mem) ∧
  (∀ v, c.held = true → queuedBehind s o = false → nth none (s.pack p).gs (c.guard.getD 0) = some v →
    ∃ u, exec (.guardSlotRead id) s = .next u ∧ SameRegs s u ∧ u.mem = s.mem ∧
      (v = true → boxEmpty c.ext = false → u = s.modOp id (fun o => { o with body := .copy { c with held := false } })) ∧
      (v = false ∨ boxEmpty c.ext = true → Finished u id)) ∧
  (∀ region fmt q stack next, c.held = false → queuedBehind s o = false → c.red = some fmt →
    c.parts.find? (fun q => q.region == region && partTurn s q) = some q → mapGet s.seqs q.region = some (stack, next, q.num) →
    let n := wSize c.wb
    let all := (boxRowsOf c.wb c.org c.ext).flatMap (fun r => (List.range (r.hi - r.lo)).map (fun i =>
      (r.addr + n * i, boxPlace c.wb c.z r.row (n * (r.lo + i)))))
    let mine := all.filter (fun e => seqKey (s.launch o.launch).pasid e.1 == region)
    let first := !c.parts.any (·.applied)
    (first = true → heldBack s o ranges = false) → s.mem.poison = [] → (s.blockOf p).spoison = [] →
    let sum := mine.foldl (fun t e => dieAdd t (redFmt fmt) n (o.tr.get e.1)
      ((redFmt fmt).read (scrNat (s.blockOf p) (s.coreIx (s.pack p)) e.2 n)) false) (if first then prepare s ranges else s)
    ∃ u, exec (.cpyrPartApply id region) s = .next u ∧ SameRegs s u ∧ u.mem = sum.mem ∧
      mapGet u.seqs q.region = some (stack, next, (q.num + 1) % 2 ^ 32) ∧
      (let marked := c.parts.map (fun e => if e.region == region then { e with applied := true } else e)
       ∀ r ∈ u.ops, r.id = id → r.body = .copy { c with parts := marked } ∧ (first = true → r.shut = ranges))) ∧
  (c.late = true → c.promise ≤ s.clk →
    let m : Lanes := 1#16 <<< c.lane
    let info := BitVec.ofNat 64 (c.bar + 256 * (c.promise.toNat % 2 ^ 56))
    let t := s.modOp id (fun o => { o with body := .copy { c with late := false } })
    let waits := fun (k : Nat) => (∃ q, ((s.pack p).slot k).path = some q ∧ q.mask &&& m ≠ 0) ∧
      (((s.pack p).slot k).stall = some .slpt ∨ ∃ b, ((s.pack p).slot k).stall = some (.bwait b))
    (¬ waits 0 → ¬ waits 1 → exec (.promiseCheck id) s = .next (t.modPack p (fun x =>
      { x with pending := x.pending ++ [{ cause := cLATE, info := info, lanes := m }] }))) ∧
    (waits 0 → (s.pack p).pending = [] → (s.pack p).gang = false → TrapsAtOnce s p 0 → exec (.promiseCheck id) s = .next (settleEnded
      (takeTrap ((t.modPack p (fun x => { x with pending := [] })).leaveMerge (waiterOf p 0)) p 0 cLATE info)))) ∧
  (∀ stack e, s.seqs.find? (fun e => e.2.1 == stack && e.2.2.1 == e.2.2.2) = some e →
    exec (.sequenceEntryFree stack) s = .next { s with seqs := mapDel s.seqs e.1 })

/-! ### Engines, arrays, tables and near memory -/

/-- R157 to R164, R167 and R293 to R297: MMA, MZERO, MLDA, MSTA and WBLD that their tables admit, with a reservation entry free,
take one entry of the cluster's engine, held by the first acting member, with a share for every other member; K.MX counts in
each of them and no register, tile or byte of memory changes. A WBLD of no bytes is complete at once. The model's choices: which
scale registers count for a tag, and that scales of absent lanes are free (log 100). -/
def Obligations.MatrixEntries : Prop := ∀ (g : Guard) (bsrc orda ordb bf bt : Bool) (pol : Policy) (d a : Fld) (tile : BitVec 3)
    (za : BitVec 19) (pa : BitVec 12) (zb : BitVec 20) (pb : BitVec 12) (m : MAddr) (i : Instr) (s : State) (cx : Cx) (t : State)
    (p : Nat), Issues i s cx t → (t.acting cx g).head? = some p → ((t.launchOf (cx.packs.headD 0)).teamW = 16 ∨ t.isGang (cx.packs.headD 0) = true) →
  (entriesOn t (engineOf (t.pack p).core)).length < 32 → (∀ q ∈ cx.packs, (t.pack q).region = none) →
  let free := fun (ps : List Nat) => ∀ q ∈ ps, canCount t cx q .mx = true
  let takes := fun (ps : List Nat) (tr : PMap) (ds : List Nat) (body : Body → Prop) => ∃ v o, Completes i s cx v ∧
    v = { t with packs := v.packs, ops := v.ops, nextOp := v.nextOp, tlbs := v.tlbs, fresh := v.fresh } ∧ TlbsFrom t v ∧ SameRegs t v ∧
    (∀ q, (v.pack q).k = if q ∈ ps then modNth (t.pack q).k KCls.mx.ix (fun n => n + 1) else (t.pack q).k) ∧
    o ∈ v.ops ∧ o.id = t.nextOp ∧ o.pack = some p ∧ o.done = false ∧ o.tr = tr ∧ o.ds = ds ∧ body o.body ∧
    (∀ q ∈ ps, q ≠ p → ∃ r ∈ v.ops, r.pack = some q ∧ r.done = false ∧ r.body = .mate t.nextOp)
  let parts := actingFirst (partsOf t cx g)
  let tiles := (t.launchOf p).tiles
  (i = .mzero g d → free cx.packs → d.toNat < tiles →
    takes cx.packs [] [] (· = .mzero (t.tileIx p d.toNat) ((partRows t parts).map (·.2.2)) (coversTeam t parts))) ∧
  (∀ tr rows, i = .mlda g bt pol d m → free cx.packs → rowChecks cx t d.toNat m 256 false false parts = .ok (tr, rows) →
    takes cx.packs tr [] (· = .mlda (t.tileIx p d.toNat) rows (m.base == 127) bt (coversTeam t parts))) ∧
  (∀ tr rows, i = .msta g bf bt pol tile d m → free cx.packs →
    rowChecks cx t tile.toNat m (if bf then 128 else 256) true (!bt) parts = .ok (tr, rows) →
    takes cx.packs tr [d.toNat - 384] (· = .msta (t.tileIx p tile.toNat) rows (m.base == 127) bf (d.toNat - 384))) ∧
  (i = .mma g bsrc orda ordb d a za pa zb pb → cx.packs.Pairwise (· < ·) → free cx.packs → d.toNat < tiles → g ≠ 15 →
    let x := t.pack p
    let l := t.launchOf p
    let fa := x.sget (a.toNat - 384)
    let fb := x.sget (a.toNat - 383)
    let regs := scaleRegs fa l.teamW l.teamW ++ scaleRegs fb 64 l.teamW
    (∀ r ∈ regs, r < l.allocV) → (∀ o ∈ t.ops, o.done = false → ∀ q ∈ cx.packs, o.pack = some q → o.dv.any regs.contains = false) →
    formatsOk fa fb pa.toNat zb.toNat pb.toNat bsrc orda ordb l.wblen = true →
    rowsBeyond (operandRows fa za.toNat pa.toNat orda l.teamW 32 32) l.sRound = none →
    (bsrc = false → rowsBeyond (operandRows fb zb.toNat pb.toNat ordb 32 64 64) l.sRound = none) →
    takes cx.packs [] [] (fun b => ∃ since, b = .mma ⟨parts.map (fun q => (q.pack, q.mask)), t.tileIx p d.toNat, fa, fb, za.toNat,
      pa.toNat, zb.toNat, pb.toNat, bsrc, orda, ordb, scaleBytes t (t.team p) fa l.teamW 0, scaleBytes t (t.team p) fb 64 (scaleFree t (t.team p) fa l.teamW),
      cx.packs.any (fun q => regs.any (t.pack q).tagB), if fFmtOf fa ≤ 1 then 2 else 1, since, false⟩)) ∧
  (∀ tr, i = .wbld g d m → free [p] →
    let len := bitsAt ((t.pack p).srcs d) 0 32
    let off := bitsAt ((t.pack p).srcs d) 32 32
    let va := (t.pack p).ea m 0
    0 < (t.launchOf p).wblen → 0 < len → len % 16 = 0 → off % 16 = 0 → off + len ≤ (t.launchOf p).wblen → va % 16 = 0 →
    probe t (.engine (engineOf (t.pack p).core)) (t.launchOf p).part (t.launchOf p).pasid (waiterOf p cx.slot) (pagesOf va len false) = .ok tr →
    takes [p] tr [] (· = .wbld va off len)) ∧
  (i = .wbld g d m → free [p] → 0 < (t.launchOf p).wblen → bitsAt ((t.pack p).srcs d) 0 32 = 0 →
    bitsAt ((t.pack p).srcs d) 32 32 % 16 = 0 → bitsAt ((t.pack p).srcs d) 32 32 ≤ (t.launchOf p).wblen → (t.pack p).ea m 0 % 16 = 0 →
    (t.pack p).ea m 0 < 2 ^ 57 → t.mem.windows = [] → ∃ v, Completes i s cx v ∧ SameRegs t v ∧ v.mem = t.mem)

/-- R56, R157, R162, R164, R166 and R167: the arbiter's grant takes one pass off the entry it chooses; an MMA without passes left,
and MZERO, MLDA, MSTA and WBLD in their team's turn with nothing holding them back, complete: the tile holds each element's
block sum, zeros or the rows read; MSTA's rows and the weight buffer's window are written, and no other tile changes. The
model's readings: MLDA's and WBLD's rows of poison, the free operands of poison, which entries the arbiter grants and which is
the oldest, and that an MMA reads its operands as it completes (logs 33, 101, 102, 103 and 116). -/
def Obligations.MatrixEvents : Prop := ∀ (s : State) (id p : Nat) (o : Op), s.op id = some o → o.id = id → o.pack = some p → o.done = false →
  p < s.packs.length → (s.pack p).block < s.blocks.length → s.mem.windows = [] →
  let only := fun (u : State) (k : Nat) => (∀ n, n ≠ k → u.tile p n = s.tile p n) ∧
    ∀ b, b ≠ (s.pack p).block → (u.block b).tiles = (s.block b).tiles
  (∀ e q, grantee s e = some q →
    exec (.matrixPassGrant e) s = .next (({ s with dev := { s.dev with inPass := mapPut s.dev.inPass e q.id } } : State).modOp q.id
      (fun r => match r.body with | .mma n => { r with body := .mma { n with passes := n.passes - 1 } } | _ => r))) ∧
  (∀ m since, o.body = .mma m → m.since = some since → since + 2048 ≤ s.clk.toNat → m.aged = false →
    exec (.matrixEntryAged id) s = .next (s.modOp id (fun o => { o with body := .mma { m with aged := true } }))) ∧
  (∀ m, o.body = .mma m → m.passes = 0 → entryReady s o = true → m.tile < (s.blockOf p).tiles.length →
    ∃ u, exec (.mmaComplete id) s = .next u ∧ Finished u id ∧ SameRegs s u ∧ u.mem = s.mem ∧
      u.tile p m.tile = mmaTile s p m ∧ only u m.tile) ∧
  (∀ k rows all, o.body = .mzero k rows all → entryReady s o = true → k < (s.blockOf p).tiles.length → mapWf 0 (s.tile p k).el = true →
    ∃ u, exec (.tileRowComplete id) s = .next u ∧ Finished u id ∧ SameRegs s u ∧ u.mem = s.mem ∧ only u k ∧
      (∀ r ∈ rows, ∀ n, n < 64 → (u.tile p k).get r n = 0) ∧
      (all = true → (u.tile p k).inexact = false ∧ (u.tile p k).tagB = false ∧ (u.tile p k).lost = false)) ∧
  (∀ k rows scr bt all, o.body = .mlda k rows scr bt all → entryReady s o = true → k < (s.blockOf p).tiles.length →
    let foot := if scr then [] else rowRanges o rows 256
    heldBack s o foot = false → (scr = false → heldStore s o (rows.map (fun r => (r.2, 256))) = false) → anyClosed s foot = false →
    ∃ u, exec (.tileRowComplete id) s = .next u ∧ Finished u id ∧ SameRegs s u ∧ only u k ∧
      u.tile p k = (rowsIn s o p k rows scr bt all).tile p k ∧ ∀ a, memByte u a = memByte s a) ∧
  (∀ k rows scr bf sd, o.body = .msta k rows scr bf sd → entryReady s o = true → k < (s.blockOf p).tiles.length →
    sd < (s.pack p).s.length →
    let foot := if scr then [] else rowRanges o rows (if bf then 128 else 256)
    heldBack s o foot = false → anyClosed s foot = false →
    ∃ u, exec (.tileRowComplete id) s = .next u ∧ Finished u id ∧ (u.pack p).sget sd = (s.tile p k).status ∧
      (∀ a, memByte u a = memByte (rowsOut s o p k rows scr bf) a) ∧
      (u.blockOf p).scratch = ((rowsOut s o p k rows scr bf).blockOf p).scratch ∧ ∀ n, u.tile p n = s.tile p n) ∧
  (∀ src off len, o.body = .wbld src off len → entryReady s o = true →
    let foot := physRanges o.tr [(src, len)]
    let l := s.launch o.launch
    heldBack s o foot = false → heldStore s o [(src, len)] = false → anyClosed s foot = false → (∀ i, i < len → s.cutOff o (o.tr.get (src + i)) = false) →
    (∀ r ∈ foot, s.cutOff o r.1 = false) → mapWf 0 s.wbuf = true →
    ∃ u, exec (.wbldComplete id) s = .next u ∧ Finished u id ∧ SameRegs s u ∧ (∀ a, memByte u a = memByte s a) ∧
      (∀ i, i < len → mapRead 0 u.wbuf (wbKey l.part (l.wboff + off + i)) = memByte s (o.tr.get (src + i))) ∧
      ∀ k, (k < wbKey l.part (l.wboff + off) ∨ wbKey l.part (l.wboff + off) + len ≤ k) → mapRead 0 u.wbuf k = mapRead 0 s.wbuf k)

/-- R171 to R178, R181, R299 to R302: XPROG, XCAL and XREF of a granted array issue one operation in each acting member; XMV starts
its pass and blocks its slot until the pass is done; ACCEPT copies the active lanes and tags the whole register E. The model's
reading: an XMV that has issued keeps its slot until its pass is over (log 124). -/
def Obligations.CrossbarIssues : Prop := ∀ (g : Guard) (d a b : Fld) (m : MAddr),
  let arr := fun (t : State) p (f : Fld) => ((t.pack p).srcs f).toNat
  let mine := fun (cx : Cx) (t : State) (f : Fld) (needs : Bool) => ∀ p ∈ t.acting cx g, arrayOk t p (arr t p f) = true ∧
    (needs = true → arrayState t (arr t p f) ≠ .empty)
  let rd := fun (t : State) p (tr : PMap) => masterRd t tr ((t.pack p).ea m 0)
  Starts (.xprog g d m) .mx (fun cx t => t.acting cx g) (fun _ _ _ x => x) (fun cx t ops => ∃ tr : Nat → PMap,
    mine cx t d false ∧ t.mem.windows = [] ∧
    (∀ p ∈ t.acting cx g, (t.pack p).ea m 0 % 128 = 0 ∧
      probe t (.engine (engineOf (t.pack p).core)) (t.launchOf p).part (t.launchOf p).pasid (waiterOf p cx.slot)
        (pagesOf ((t.pack p).ea m 0) masterBytes false) = .ok (tr p) ∧
      sourceWaits t p (tr p) [((t.pack p).ea m 0, masterBytes)] = false ∧
      masterOk (rd t p (tr p)) = true ∧ poisonIn t (physRanges (tr p) [((t.pack p).ea m 0, masterBytes)]) = false) ∧
    ops = issued t cx .mx [] [] ((t.acting cx g).map (fun p => (p, tr p, .xprog (arr t p d) ((t.pack p).ea m 0)
      ((List.range 512).flatMap (fun r => (List.range 512).map (weightAt (rd t p (tr p)) r)))
      ((List.range 512).map (columnWord (rd t p (tr p)) 131072))
      (((List.range 512).map (columnWord (rd t p (tr p)) 133120)).map (·.toNat)) false)))) ∧
  Starts (.xcal g d b) .mx (fun cx t => t.acting cx g) (fun _ _ _ x => x) (fun cx t ops => mine cx t b true ∧
    ops = issued t cx .mx [] [d.toNat - 384] ((t.acting cx g).map (fun p => (p, ([] : PMap), .xcal (arr t p b) (d.toNat - 384))))) ∧
  Starts (.xref g d a b) .mx (fun cx t => t.acting cx g) (fun _ _ _ x => x) (fun cx t ops => mine cx t b true ∧
    ops = issued t cx .mx [d.toNat] [] ((t.acting cx g).map (fun p => (p, ([] : PMap),
      .xref (arr t p b) (xInputs (t.pack p) a.toNat (t.active cx g p)) d.toNat)))) ∧
  (∀ s cx t, Issues (.xmv g d a b) s cx t → t.acting cx g ≠ [] → ((t.pack (cx.packs.headD 0)).slot cx.slot).stall ≠ some .xmv →
    (∀ p ∈ cx.packs, ((t.pack p).slot cx.slot).stall ≠ some .collective) →
    (∀ p ∈ t.acting cx g, canCount t cx p .mx = true) → (t.launchOf (cx.packs.headD 0)).det = false → mine cx t b true →
    (∀ p ∈ t.acting cx g, arrayState t (arr t p b) ≠ .stale) →
    ∃ u, exec (.xmv g d a b) s = .next u ∧ SameRegs t u ∧ u.mem = t.mem ∧
      (∀ p ∈ cx.packs, ((u.pack p).slot cx.slot).stall = some .xmv ∧ ((u.pack p).slot cx.slot).path = ((t.pack p).slot cx.slot).path) ∧
      u.ops = t.ops ++ issued t cx .mx (regsFrom d.toNat 32) [] ((t.acting cx g).map (fun p => (p, ([] : PMap),
        .xmv (arr t p b) (xInputs (t.pack p) a.toNat (t.active cx g p)) d.toNat
          ((List.range 8).all (fun i => !(t.pack p).tagB (a.toNat + i))) cx.slot cx.packs)))) ∧
  ∀ s cx t, Issues (.accept g d a) s cx t → ∃ v, Completes (.accept g d a) s cx v ∧
    PacksOnly t v (fun p x => if p ∈ cx.packs ∧ t.active cx g p ≠ 0
      then (x.writeLanes d.toNat (t.active cx g p) (x.srcv .int a)).tag d.toNat false else x)

/-- R182 to R184, R303, R304 and R306: TBIND of a legal binding without a source binds its slot at once, with a source it issues the
copy; TQ and TQM of a bound slot issue one query in each acting member with its lanes' entries; POST after its release wait
issues one store of eight bytes in each member. R305, R333, R334, R414 and R416: NLAUNCH of a legal record whose pages are
translated and lie in device memory, with room in the stack's queue and outside a `.det` launch or in its turn, queues one
Cellar job; one with a guard, or that stands behind a command that a guard holds, is held. The model's readings: the owner of a
region's first page keeps its counter, the cache that translates TBIND's source, the order of a guarded job, the queue of an
empty range, the stamp of a job's arrival, and EVADDR's alignment (logs 35, 44, 48, 49, 50 and 51). -/
def Obligations.TablesPostAndJobsIssue : Prop :=
  (∀ (g : Guard) (n16 : Bool) (slot : BitVec 4) (win : BitVec 2) (d a b c : Fld) (m : MAddr)
      (p : Nat),
    let bind := fun (t : State) => (⟨(t.launchOf p).tbase + bRow ((t.pack p).srcs d) / 1024, n16, 2 ^ bRows ((t.pack p).srcs d),
      2 ^ bCols ((t.pack p).srcs d)⟩ : TBind)
    (∀ s cx t rest, Issues (.tbind g n16 slot d m) s cx t → t.acting cx g = p :: rest → canCount t cx p .tq = true →
      bindOk ((t.pack p).srcs d) (t.launchOf p) = true → (t.pack p).ea m 0 = 0 → t.mem.windows = [] →
      (t.pack p).launch < t.launches.length → slot.toNat < (t.launchOf p).tbinds.length →
      ∃ v, Completes (.tbind g n16 slot d m) s cx v ∧ SameRegs t v ∧ v.mem = t.mem ∧
        (v.launch (t.pack p).launch).tbinds = (t.launchOf p).tbinds.set slot.toNat (some (bind t))) ∧
    Starts (.tbind g n16 slot d m) .tq (fun _ _ => [p]) (fun _ _ _ x => x) (fun cx t ops => ∃ rest tr,
      t.acting cx g = p :: rest ∧ bindOk ((t.pack p).srcs d) (t.launchOf p) = true ∧
      let src := (t.pack p).ea m 0
      src ≠ 0 ∧ src % 16 = 0 ∧
      probe t (.courier (t.pack p).core) (t.launchOf p).part (t.launchOf p).pasid (waiterOf p cx.slot) (pagesOf src 1024 false) = .ok tr ∧
      ops = issued t cx .tq [] [] [(p, tr, .tbind slot.toNat (bind t) src)]) ∧
    (let query := fun (i : Instr) (k : Nat) (second : Option Fld) => ∀ bd : TBind,
      Starts i .tq (fun cx t => t.acting cx g) (fun _ _ _ x => x) (fun cx t ops =>
        let dst := regsFrom d.toNat (if bd.wide then 2 else 1)
        (t.launchOf (cx.packs.headD 0)).tbind k = some bd ∧ (bd.wide = true → win.toNat < 2) ∧
        (∀ o ∈ t.ops, o.done = false → ∀ q ∈ cx.packs, o.pack = some q →
          (∀ x y, o.body ≠ .tbind k x y) ∧ o.dv.any dst.contains = false) ∧
        (∀ q ∈ cx.packs, ∀ r ∈ dst, r < (t.pack q).alloc) ∧
        (∀ q ∈ t.acting cx g, ∀ f ∈ a :: second.toList, (t.pack q).srcB f = false) ∧
        ops = issued t cx .tq dst [] ((t.acting cx g).map (fun q => (q, ([] : PMap), .tq bd ((lanesOf (t.active cx g q)).map (fun l =>
          (l, entriesOf bd win.toNat ((t.pack q).srcv .int a l) (second.map (fun f => (t.pack q).srcv .int f l))))) d.toNat))))
     query (.tq g win d a b) b.toNat none ∧ query (.tqm g win d a b c) c.toNat (some b)) ∧
    Starts (.post g d m) .st (fun cx t => cx.packs.filter (t.ucond cx g)) (fun _ _ _ x => x) (fun cx t ops => ∃ ms,
      (∀ q ∈ cx.packs.filter (t.ucond cx g), relBusy t q = false ∧ (t.pack q).ea m 0 % 8 = 0) ∧
      probeEach t cx.slot ((cx.packs.filter (t.ucond cx g)).map (fun q => (q, [((t.pack q).ea m 0, true)]))) = .ok ms ∧
      ((t.launchOf (cx.packs.headD 0)).det = false ∨ detTurn t (cx.packs.headD 0) = true) ∧
      ops = issued t cx .st [] [] ((cx.packs.filter (t.ucond cx g)).map (fun q => (q, mapOf ms q,
        .post ((mapOf ms q).bytes ((t.pack q).ea m 0) (leBytes ((t.pack q).srcs d).toNat 8))))))) ∧
  (∀ (g : Guard) (ben gen : Bool) (bar : BitVec 4) (gslot : BitVec 3) (m : MAddr) (p : Nat) (rest : List Nat)
      (s : State) (cx : Cx) (t : State) (wm mp : PMap) (regs : List (Nat × Nat)), let i : Instr := .nlaunch g ben gen bar gslot m
    Issues i s cx t → t.acting cx g = p :: rest → (∀ q ∈ cx.packs, (t.pack q).region = none) → canCount t cx p .nm = true →
    let x := t.pack p
    let l := t.launchOf p
    let va := x.ea m 0
    va % 64 = 0 → probe t (.courier x.core) l.part l.pasid (waiterOf p cx.slot) (pagesOf va 64 false) = .ok wm →
    sourceWaits t p wm [(va, 64)] = false → t.mem.windows = [] →
    let r : BitVec 512 := BitVec.ofNat 512 (memNat t (wm.get va) 64)
    let tc := jobTlb t l.pasid r
    jobOk r = true → inTableArea t tc l.pasid r = false →
    probe t tc l.part l.pasid (waiterOf p cx.slot) (jobPages r) = .ok mp → outside mp r = none →
    regionStacks (t.fillTc (.courier x.core) l.pasid (pagesOf va 64 false)) tc l.part l.pasid
      (waiterOf p cx.slot) mp (if jKind r = 3 then regionsOf l.pasid [(jArg r 0, jN r * fmtBytes (jFmt r))] else []) = .ok regs →
    seqRoom t regs = true → (gen = false → queued t (stackOf (mp.get (jobHead r))) < 64) →
    (l.det = false ∨ detTurn t p = true) →
    let n := takeNumbers t regs
    let job : Job := ⟨r, if ben then some bar.toNat else none,
      if gen then some gslot.toNat else none, if gen then .held else .queued, false, stackOf (mp.get (jobHead r)), t.nextOp, 0, 0, false,
      0, 0, l.ring, x.lclk.toNat, n.2⟩
    let me : Op := { id := t.nextOp, grp := t.nextOp, pack := some p, launch := x.launch, k := some .nm, tr := mp, body := .job job }
    ∃ v, Completes i s cx v ∧ SameRegs t v ∧ v.mem = t.mem ∧ v.seqs = n.1.seqs ∧
      (v.pack p).k = modNth x.k KCls.nm.ix (fun n => n + 1) ∧
      v.ops = t.ops ++ issued t cx .nm [] [] [(p, mp, .job (if jobBehind t me job then { job with stage := .held } else job))])

/-- R173 to R178, R183, R300, R301, R303, R304 and R419: the operation at the head of an array's queue ends: XPROG leaves the array
READY with its contents, XCAL leaves READY or STALE with S[D] 0 or 1 accordingly, XREF writes the eight reference codes, XMV of
a `.det` launch writes the exact product; outside one, a stale array or a measured reference code more than 3 from the ideal one
raises XDRIFT and leaves the destination as it was, and any other pass writes outputs within the bound of R175, tagged B, and
XBND; TBIND's row holds its source and the slot is bound; TQ's lanes hold the entries of their row. ADC and reference codes are
free values, and while a partition is being halted an XPROG or XCAL acts before its decrement (logs 4, 66 and 117). -/
def Obligations.ArrayAndTableEvents : Prop := ∀ (s : State) (id p : Nat) (o : Op), s.op id = some o → o.id = id → o.pack = some p →
  o.done = false → p < s.packs.length → s.mem.windows = [] →
  (∀ k va w sc ms bad, o.body = .xprog k va w sc ms bad → arrayTurn s id k = true → o.acted = true →
    exec (.xprogDone id) s = .next (completeOp s id)) ∧
  (∀ k sd, o.body = .xcal k sd → arrayTurn s id k = true → o.acted = true → exec (.xcalDone id) s = .next (completeOp s id)) ∧
  (let l := s.launch o.launch
   let ends := fun (u : State) => if l.preempt = true ∧ (s.part l.part).state = 1 then ∀ q ∈ u.ops, q.id = id → q.acted = true else Finished u id
   o.acted = false →
  (∀ k va w sc ms bad, o.body = .xprog k va w sc ms bad → arrayTurn s id k = true → ∃ (u : State) (gain offs : List (BitVec 16)),
    exec (.xprogDone id) s = .next u ∧ ends u ∧ SameRegs s u ∧ u.mem = s.mem ∧ gain.length = 512 ∧ offs.length = 512 ∧
    u.arrays = mapPut s.arrays k ⟨(s.launch o.launch).pasid, .ready, va, w, sc, ms, gain, offs, bad⟩) ∧
  (∀ k sd r, o.body = .xcal k sd → arrayTurn s id k = true → mapGet s.arrays k = some r → sd < (s.pack p).s.length →
    ∃ (u : State) (bad : Bool) (gain offs : List (BitVec 16)), exec (.xcalDone id) s = .next u ∧
    gain.length = 512 ∧ offs.length = 512 ∧ ends u ∧ u.mem = s.mem ∧ (u.pack p).sget sd = (if bad then 1 else 0) ∧
      u.arrays = mapPut s.arrays k { r with st := if bad then .stale else .ready, gain := gain, offs := offs })) ∧
  (∀ k x d r, o.body = .xref k x d → arrayTurn s id k = true → mapGet s.arrays k = some r → 16 * (d + 1) ≤ (s.pack p).v.length →
    ∃ u, exec (.xrefDone id) s = .next u ∧ Finished u id ∧ u.mem = s.mem ∧
      (∀ l, 8 ≤ l → l < 16 → (u.pack p).vget d l = 0) ∧ (∀ j, j < 4 → (u.pack p).vget d (4 + j) = BitVec.ofInt 32 (idealRef x j)) ∧
      (∀ j, j < 4 → -512 ≤ ((u.pack p).vget d j).toInt ∧ ((u.pack p).vget d j).toInt ≤ 511)) ∧
  (∀ k x d allE slot packs r, o.body = .xmv k x d allE slot packs → arrayTurn s id k = true → mapGet s.arrays k = some r →
    (s.launch o.launch).det = true →
    let foot := physRanges o.tr [(r.va, masterBytes)]
    heldBack s o foot = false → heldStore s o [(r.va, masterBytes)] = false → anyClosed s foot = false → poisonIn s foot = false →
    ∃ u, exec (.xmvPassDone id) s = .next u ∧ Finished u id ∧ u.mem = s.mem ∧
      (u.pack p).v = ((s.pack p).writeColumns d (exactOut s o.tr r.va x) (!allE)).v ∧
      (u.pack p).tags = ((s.pack p).writeColumns d (exactOut s o.tr r.va x) (!allE)).tags) ∧
  (∀ k x d allE slot packs r, o.body = .xmv k x d allE slot packs → arrayTurn s id k = true → mapGet s.arrays k = some r →
    (s.launch o.launch).det = false →
    let off := (List.range 4).filter (fun j => decide (3 < (refCode r s.fresh j - idealRef x j).natAbs))
    (r.st = .stale ∨ off ≠ [] → ∃ u, exec (.xmvPassDone id) s = .next u ∧ Finished u id ∧ (u.pack p).v = (s.pack p).v ∧
      (u.pack p).tags = (s.pack p).tags ∧ (u.pack p).xbnd = (s.pack p).xbnd ∧
      (packs = [p] → (∀ l ∈ s.launches, l.stat ≠ .ending) → TrapsAtOnce s p slot → (s.pack p).retired = false → (s.pack p).gang = false →
        (s.pack p).priv = false → (s.pack p).inUserHandler = false → (s.pack p).trapv ≠ 0 → s.canPush p 3 = true →
        (u.pack p).trapc = BitVec.ofNat 64 cXDRIFT ∧ (u.pack p).trapa = BitVec.ofNat 64 (k % 4096 +
          if r.st = .stale then 65536 else 4096 * (off.map (2 ^ ·)).sum))) ∧
    (r.st ≠ .stale → off = [] → r.poison = false → r.w.length = 512 * x.length → ∃ u, ∃ ys : List W32,
      exec (.xmvPassDone id) s = .next u ∧ Finished u id ∧ u.mem = s.mem ∧ ys.length = 512 ∧
      (u.pack p).v = ((s.pack p).writeColumns d ys true).v ∧ (u.pack p).tags = ((s.pack p).writeColumns d ys true).tags ∧
      (∃ sat : Bool, (u.pack p).xbnd = BitVec.ofNat 64 ((boundOf r).toNat + (if sat then 2 ^ 32 else 0) + 2 ^ 33 * k)) ∧
      ∀ c, c < 512 →
        let m := nth 1 r.m c
        let y := columnSum x (fun i => (nth 0 r.w (512 * i + c)).toInt)
        ∃ n : Int, nth 0 ys c = scaleCode (n * m) (nth 0 r.scale c) ∧ -512 ≤ n ∧ n ≤ 511 ∧
          (0 < m → if -512 * (m : Int) ≤ y ∧ y ≤ 511 * (m : Int) then (n * m - y).natAbs ≤ 2 * m else n = if y < 0 then -512 else 511))) ∧
  (∀ slot bd src, o.body = .tbind slot bd src →
    let foot := physRanges o.tr [(src, 1024)]
    (∀ i, i < 1024 → s.cutOff o (o.tr.get (src + i)) = false) → heldBack s o foot = false → heldStore s o [(src, 1024)] = false → anyClosed s foot = false → Memory.wf s.mem.ram = true →
    ∃ u, exec (.tbindCopyDone id) s = .next u ∧ Finished u id ∧ SameRegs s u ∧
      (∀ i, i < 1024 → ramRead u (rowKey bd.row + i) = memByte s (o.tr.get (src + i))) ∧
      (o.launch < s.launches.length → (u.launch o.launch).tbinds = (s.launch o.launch).tbinds.set slot (some bd))) ∧
  (∀ bd lanes d, o.body = .tq bd lanes d → ∃ u, exec (.tqDone id) s = .next u ∧ Finished u id ∧ u.mem = s.mem ∧
    (bd.wide = false → (u.pack p).v = (lanes.foldl (fun (x : Pack) e => x.vset d e.1
      (BitVec.ofNat 32 (ofBytes (e.2.map (fun n => BitVec.ofNat 8 (rowEntry s bd n)))))) (s.pack p)).v) ∧
    (bd.wide = true → (u.pack p).v = (lanes.foldl (fun (x : Pack) e =>
      (x.vset d e.1 (BitVec.ofNat 32 (rowEntry s bd (nth 0 e.2 0) + 65536 * rowEntry s bd (nth 0 e.2 1)))).vset (d + 1) e.1
        (BitVec.ofNat 32 (rowEntry s bd (nth 0 e.2 2) + 65536 * rowEntry s bd (nth 0 e.2 3)))) (s.pack p)).v))

/-- R126, R147, R153, R305, R333 to R336, R415 and R416: a Cellar job that nothing holds back starts with its ranges prepared,
computes what its kind says over memory, and completes with its event record written, or with none, poison that it read recorded
for its launch (R407, R420), and its arrival made; a RAPPLY job applies its parts in their regions' order. The model's readings:
a discarded RAPPLY is complete at once, the order of jobs behind a held one and of a guarded one, the slots deferred, and the
order of bags (logs 43, 47, 48, 62 and 119). -/
def Obligations.CellarEvents : Prop := ∀ (s : State) (id : Nat) (o : Op) (j : Job), s.op id = some o → o.id = id → o.body = .job j →
  o.done = false → j.discarded = false → s.mem.windows = [] →
  (j.stage = .queued → jobBlocked s o j = false →
    ∃ u, exec (.cellarJobStart id) s = .next u ∧ u.mem = (prepare s (jobFoot o j true)).mem ∧ u.packs = s.packs ∧
      ∀ q ∈ u.ops, q.id = id → q.body = .job { j with stage := .running } ∧ q.shut = jobFoot o j true) ∧
  (∀ p n v, o.pack = some p → j.stage = .held → unreadBefore s o j = false → j.guard = some n → nth none (s.pack p).gs n = some v →
    ∃ u, exec (.guardSlotRead id) s = .next u ∧ SameRegs s u ∧ u.mem = s.mem ∧ (v = false → Finished u id) ∧
      (v = true → ∀ q ∈ u.ops, q.id = id → q.body = .job (if jobBehind s o j = false ∧ queued s j.stack < 64
        then { j with guard := none, stage := .queued, order := s.nextOp } else { j with guard := none }))) ∧
  (∀ p, o.pack = some p → j.stage = .held → jobBehind s o j = false → j.guard = none → queued s j.stack < 64 →
    ∃ u, exec (.guardSlotRead id) s = .next u ∧ SameRegs s u ∧ u.mem = s.mem ∧
      ∀ q ∈ u.ops, q.id = id → q.body = .job { j with guard := none, stage := .queued, order := s.nextOp }) ∧
  (let runs := fun (e : Instr) (kind : Nat) (f : State → PMap → BitVec 512 → JobRun) => j.stage = .running → jKind j.raw = kind →
     let r := deferWaves s (jobUnits o j.raw) j
     let q := f r.1 o.tr j.raw
     ∃ u, exec e s = .next u ∧ u.mem = q.s.mem ∧ u.packs = s.packs ∧ ∀ x ∈ u.ops, x.id = id →
       x.body = .job { r.2 with stage := .computed, code := q.code, bag := q.bag, poison := q.bad || unitFailed r.1 o j.raw }
   runs (.cellarDot id) 0 dotJob ∧ runs (.cellarSegsum id) 1 segsumJob ∧ runs (.cellarAdamw id) 2 adamJob ∧
   runs (.cellarFill id) 4 fillJob) ∧
  (∀ region q stack next, j.stage = .running → j.parts.find? (fun q => q.region == region && partTurn s q) = some q →
    mapGet s.seqs q.region = some (stack, next, q.num) →
    let parts := j.parts.map (fun e => if e.region == region then { e with applied := true } else e)
    let all := parts.all (·.applied)
    let r := deferWaves s (partUnits s o j.raw region) j
    let w := rapplyPart r.1 o.tr j.raw (r.1.opPasid o) region
    ∃ u, exec (.cellarRapply id region) s = .next u ∧ u.mem = w.s.mem ∧ u.packs = s.packs ∧
      mapGet u.seqs q.region = some (stack, next, (q.num + 1) % 2 ^ 32) ∧
      (let next := if all then JStage.computed else JStage.running
       ∀ x ∈ u.ops, x.id = id → x.body = .job { r.2 with parts := parts, poison := r.2.poison || w.bad || unitFailed r.1 o j.raw, stage := next })) ∧
  (∀ p, o.pack = some p → j.stage = .computed → j.deferred = 0 → (s.pack p).block < s.blocks.length →
    let ev := jEvent j.raw
    let t := s.modOp id (fun o => { o with shut := [] })
    let b := fun n => { s.bar p n with arr := (s.bar p n).arr + 1 }
    ∃ u, exec (.cellarJobComplete id) s = .next u ∧ Finished u id ∧ SameRegs s u ∧
      u.mem = (if ev = 0 then s.mem else (engineWrite t ((leBytes (eventRecord j s.clk).toNat 32).zipIdx.map (fun e =>
        (o.tr.get (ev + e.2), e.1)))).mem) ∧
      (ev = 0 → j.poison = true → o.node = none → o.launch < s.launches.length → (s.launch o.launch).summary = 0 →
        (u.launch o.launch).summary = summaryOf cMEMERR false false 0) ∧
      ∀ n, j.bar = some n → n < (s.blockOf p).bars.length →
        u.bar p n = (if (b n).expect ≤ (b n).arr ∧ 0 < (b n).arr then { b n with phase := (b n).phase + 1, arr := 0 } else b n))

/-! ### Queues, launches and graphs -/

/-- R347 to R352, R356 and R360: QTAIL moves the tail unless the ring would be overfilled; a head command that could start for 2^20
clocks is starved; the queue whose turn it is takes its head entry: a NOP does nothing more, an undefined OPC is answered
BADRECORD, a LAUNCH is admitted or refused with its status, and a REPLAY of a legal graph becomes an instance. The model's
readings: GRAPHBUSY comes before the graph is checked, only the marked arguments are read, an illegal entry is answered on ring
0 with TAG 0, and the command processor waits for the translation of an entry whose turn it is (logs 61, 89, 90 and 120). -/
def Obligations.QueueEvents : Prop := ∀ (s : State) (q : Nat) (v : W64), q < s.queues.length → s.queues.length = 64 → s.mem.windows = [] →
  let r := s.queue q
  (s.answers = true →
    ((r.entries < (v.setWidth 32 - r.head).toNat → exec (.qtailWrite q v) s = .next s) ∧
     ((v.setWidth 32 - r.head).toNat ≤ r.entries → ∃ u, exec (.qtailWrite q v) s = .next u ∧ u = { s with queues := u.queues } ∧
       (u.queue q).tail = v.setWidth 32 ∧ (u.queue q).head = r.head ∧ ∀ k, k ≠ q → (u.queue k).tail = (s.queue k).tail))) ∧
  (∀ c, r.since = some c → canStart s q = true → r.starved = false → c + 2 ^ 20 ≤ s.clk.toNat →
    ∃ u, exec (.queueStarvationTimeout q) s = .next u ∧ u = { s with queues := u.queues } ∧ (u.queue q).starved = true ∧
      (u.queue q).head = r.head) ∧
  (∀ n, nextQueue s = some q → cpRead s q r.pasid r.headAddr 64 = .ok (s, n) →
    let e : BitVec 512 := BitVec.ofNat 512 n
    let taken := fun (u : State) => (u.queue q).head = r.head + 1 ∧ u.lastQueue = q ∧ u.mem = s.mem ∧ u.packs = s.packs ∧ u.ops = s.ops
    (eOpc e = 0 → entryOk e = true → ∃ u, exec (.commandNop q) s = .next u ∧ taken u ∧ u.records = s.records ∧
      u.launches = s.launches ∧ u.replays = s.replays ∧ (u.queue q).running = r.running) ∧
    (3 ≤ eOpc e → recordsFull s 0 = false → ∃ u, exec (.commandNop q) s = .next u ∧ taken u ∧
      ((s.ring 0).en = true → u.records = s.records ++ [⟨0, mkRecord 0 0 6 0 q, none⟩])) ∧
    (∀ rn gn m, eOpc e = 1 → entryOk e = true → cpRead s q r.pasid (ePtr e) 128 = .ok (s, rn) →
      let raw : BitVec 1024 := BitVec.ofNat 1024 rn
      let l0 := newLaunch s q none r.pasid (ePtr e) raw 0
      let good := recordOk raw && ePtr e % 128 == 0 && l0.grantAddr % 128 == 0
      let l := { l0 with grant := BitVec.ofNat 1024 gn }
      let foot := (argAddrs l).filterMap (fun a => (m.at a.2).map (fun ph => (ph, 8)))
      cpRead s q r.pasid l0.grantAddr (if good && l0.grantAddr != 0 then 128 else 0) = .ok (s, gn) →
      probe s .l2 l.part r.pasid (queueWaiter q) (if good then (argAddrs l).map (fun a => (a.2, false)) else []) = .ok m →
      anyClosed s foot = false → behindRelay s foot = false →
      let st := admitStatus s l good
      (st = 0 ∨ recordsFull s l.ring = false) → ∃ u, exec (.commandLaunch q) s = .next u ∧ taken u ∧
        (st = 0 → (u.queue q).running = r.running + 1 ∧ u.records = s.records ∧ u.launches = s.launches ++
          [{ l with args := argValues l (fun va => vNat s m va 8), stat := if windowFree s l then .running else .window }]) ∧
        (st ≠ 0 → u.launches = s.launches ∧ (u.queue q).running = r.running ∧
          ((s.ring l.ring).en = true → u.records = s.records ++ [⟨l.ring, mkRecord l.tag 0 st 0 q, none⟩]))) ∧
    (∀ hn, eOpc e = 2 → entryOk e = true → cpRead s q r.pasid (ePtr e) 64 = .ok (s, hn) →
      let h : BitVec 512 := BitVec.ofNat 512 hn
      let pend := s.replays.filter (fun p => p.pends r.pasid (ePtr e))
      let refused := fun (st : Nat) => ∃ u, exec (.commandReplay q) s = .next u ∧ taken u ∧ u.replays = s.replays ∧
        ((s.ring (hRing h)).en = true → u.records = s.records ++ [⟨hRing h, mkRecord (hTag h) 0 st 1 q, none⟩])
      (4 ≤ pend.length → recordsFull s (hRing h) = false → refused 2) ∧
      (pend.length < 4 → recordsFull s (hRing h) = false → (ePtr e % 64 ≠ 0 ∨ headerFits h = false) → refused 6) ∧
      (∀ rs ns es out, pend.length < 4 → ePtr e % 64 = 0 → headerFits h = true →
        cpList s q r.pasid 64 ((List.range (hNnode h)).map (fun i => ePtr e + 64 * (i + 1))) = .ok (s, some rs) →
        graphOk h (rs.map (BitVec.ofNat 512)) = true → cpNodes s q r.pasid (rs.map (BitVec.ofNat 512)) = .ok (s, some ns) →
        cpList s q r.pasid 16 ((List.range (eNpatch e)).map (fun i => ePatch e + 16 * i)) = .ok (s, some es) →
        patches (es.map (BitVec.ofNat 128)) ns = some out → graphOk h (out.map (·.raw)) = true →
        let p : Replay := { queue := q, pasid := r.pasid, object := ePtr e, header := h, nodes := out, started := false, finished := false, status := 0 }
        ∃ u, exec (.commandReplay q) s = .next u ∧ taken u ∧ (u.queue q).running = r.running + 1 ∧
          u.replays = s.replays ++ [if pend.isEmpty then p.start else p])))

/-- R7, R8, R11, R13, R122, R352 to R354: a launch whose weight-buffer window and table rows are free runs; the next block of a
launch is placed, every pack of it at the launch's entry with its present lanes, arguments and seed and everything else as R13
and R70 start it, and no other pack or block changes; what waited 65,536 clocks reserves cores. Registers that the spec leaves
undefined are free values, a team goes to the quarter with the fewest packs, and a pack of a team without a present lane is
retired at launch (logs 4, 95 and 111). -/
def Obligations.BlockEvents : Prop := ∀ (s : State) (i : Nat), i < s.launches.length →
  let l := s.launch i
  (l.stat = .window → windowFree s l = true → grantFree s l = true → s.halting l.part = false →
    exec (.windowFreeAdmit i) s = .next ((takeArrays s l).modLaunch i (fun l => { l with stat := .running, adm := s.clk.toNat, waitSince := s.clk.toNat }))) ∧
  (∀ cores, wantsPlace s i = true → l.det = false → goesFirst s i = false → placeOn s s i cores = true →
    let placed := fun (u : State) =>
      (∀ p, p < s.packs.length → u.pack p = s.pack p) ∧ (∀ b, b < s.blocks.length → u.block b = s.block b) ∧
      u.packs.length = s.packs.length + l.packsPer ∧ u.mem.ram = s.mem.ram ∧ u.mem.l2 = s.mem.l2 ∧ u.ops = s.ops ∧
      (u.launch i).nextBlock = l.nextBlock + 1 ∧
      (let b := u.block s.blocks.length
       b.launch = i ∧ b.b = l.nextBlock ∧ b.cores = cores ∧ b.retired = false ∧ b.bars = List.replicate 16 {} ∧
       b.slots = List.replicate 32 none ∧ b.scratch = [] ∧ ∀ t ∈ b.tiles, t = {}) ∧
      ∀ k, k < l.packsPer →
        let x := u.pack (s.packs.length + k)
        x.launch = i ∧ x.block = s.blocks.length ∧ x.pk = k ∧ x.quarter = nth 0 (u.block s.blocks.length).quart k ∧ x.present = l.present k ∧ x.retired = (l.present k == 0) ∧
        x.lead = { path := if l.present k = 0 then none else some ⟨l.entry, l.present k, none⟩ } ∧ x.heel = {} ∧ x.kennel = [] ∧
        x.alloc = l.allocV ∧ (∀ r, x.tagB r = false) ∧ (∀ n, n < 96 → l.argmask.getLsbD n = true → x.sget n = nth 0 l.args n) ∧
        (∀ n, n < 7 → x.pget n = 0) ∧ (∀ r n, x.qget r n = 0) ∧ x.lclk = 0 ∧ x.beta = 0x7F800000#32 ∧ x.seed = l.seed ∧
        x.trapc = 0 ∧ x.trapa = 0 ∧ x.xbnd = 0 ∧ x.sect = none ∧ x.region = none
    (∀ c, cores = [c] → l.threads ≤ 4096 → ∃ u, exec (.blockPlace i c) s = .next u ∧ placed u) ∧
    (4096 < l.threads → ∃ u, exec (.caravanPlace i cores) s = .next u ∧ placed u)) ∧
  (∀ cores, wantsPlace s i = true → l.reserved = [] → l.waitSince + 65536 ≤ s.clk.toNat → (nextCores s i).isNone = true →
    (placeRun { s with blocks := [] } i (together' s i) cores).isSome = true →
    let kept := fun (e : Instr) => exec e s = .next (s.modLaunch i (fun l => { l with reserved := cores.eraseDups }))
    (l.det = false → l.threads ≤ 4096 → kept (.blockWaitTimeout i cores)) ∧
    ((l.det = true ∨ 4096 < l.threads) → kept (.caravanWaitTimeout i cores)))

/-- R367 to R369: RHEAD moves the head; the oldest record of an enabled ring with room is written at the tail with CLK as it is, the
tail advances, and the interrupt comes with the COUNTth record or when TIME has passed. R357 to R359: a ready node of a running
replay acts as its kind says: a kernel node admits its launch, a Cellar node queues its job, a copy node copies its bytes, or
meets a window that no port serves and notes CAUSE 0x19 for its replay, a host wait passes at its value, a condition takes the
branch its word names or ends with BADCOND, an event node produces its record, and is over once that record is written; a node
whose action is over sends its edges, and the last one ends the replay. The model's choices: the owner of a region's first page
keeps its counter, the order of a guarded job, the queue of an empty range, a copy node copies in one step, what it does at a
window that no port serves, status 6 of a node whose addresses lead nowhere, and how an event node is known to be over (logs 35,
48, 49, 55, 59, 60 and 123). -/
def Obligations.RingsAndGraphs : Prop :=
  (∀ (s : State) (r : Nat) (v : W64), r < s.rings.length → s.mem.windows = [] →
    let g := s.ring r
    (s.answers = true → exec (.rheadWrite r v) s = .next (s.modRing r (fun g => { g with head := v.setWidth 32 }))) ∧
    (∀ e m, s.records.find? (fun e => e.ring == r) = some e → g.en = true → g.room = true →
      probe s .l2 noPart (bitsAt g.ctl 32 20) (ringWaiter r) (pagesOf g.tailAddr 32 true) = .ok m →
      anyClosed s (physRanges m [(g.tailAddr, 32)]) = false →
      let due := max 1 (bitsAt g.coal 0 8) ≤ g.count + 1
      ∃ u more, exec (.eventRecordWrite r) s = .next u ∧ u.records = s.records.erase e ++ more ∧ (u.ring r).tail = g.tail + 1 ∧
        u.mem = (engineWrite (s.leaveMerge (ringWaiter r)) (m.bytes g.tailAddr (leBytes (putBits e.bits 0 64 s.clk.toNat).toNat 32))).mem ∧
        SameRegs s u ∧ (u.ring r).count = (if due then 0 else g.count + 1) ∧ (due → bitsAt g.ctl 16 16 < 2048 → .msix (bitsAt g.ctl 16 16) ∈ u.sent)) ∧
    (∀ c, g.first = some c → bitsAt g.coal 16 16 ≠ 0 → c + 1500 * bitsAt g.coal 16 16 ≤ s.clk.toNat →
      exec (.ringCoalesceTimeout r) s = .next ((s.modRing r (fun g => { g with count := 0, first := none })).sendVec (bitsAt g.ctl 16 16)))) ∧
  (∀ (s : State) (r n : Nat), r < s.replays.length → n < (s.replay r).nodes.length → s.mem.windows = [] →
    let q := s.replay r
    let raw := (s.node r n).raw
    let part := Config.queuePart q.queue % 4
    let who := nodeWaiter r n
    let ready := nodeReady s r n (nKind raw) = true
    let acted := fun (st : Nat) (t : State) => (nodeStatus t (some (r, n)) st).leaveMerge who
    (∀ t st, ready → nKind raw = 0 → s.halting part = false →
      admitLaunch s q.queue (some (r, n)) q.pasid (nArg raw) (s.node r n).arg = .ok (t, st) →
      exec (.nodeKernel r n) s = .next (if st = 0 then (t.modNode r n (fun m => { m with stat := .running })).leaveMerge who else acted st t)) ∧
    (ready → nKind raw = 1 →
      let j : BitVec 512 := (s.node r n).arg.setWidth 512
      let tc := jobTlb s q.pasid j
      let bad := nArg raw % 64 ≠ 0 ∨ jobOk j = false
      (bad → exec (.nodeCellar r n) s = .next (acted 6 s)) ∧
      (¬ bad → awaitSource s tc part q.pasid who j = .ok () → inTableArea s tc q.pasid j = true → exec (.nodeCellar r n) s = .next (acted 6 s)) ∧
      (∀ mp, ¬ bad → awaitSource s tc part q.pasid who j = .ok () → inTableArea s tc q.pasid j = false → probe s tc part q.pasid who (jobPages j) = .ok mp →
        ((outside mp j).isSome = true → exec (.nodeCellar r n) s = .next (acted 6 s)) ∧
        (∀ regs, outside mp j = none → queued s (stackOf (mp.get (jobHead j))) < 64 →
          regionStacks s tc part q.pasid who mp
            (if jKind j = 3 then regionsOf q.pasid [(jArg j 0, jN j * fmtBytes (jFmt j))] else []) = .ok regs → seqRoom s regs = true →
          let t := takeNumbers s regs
          let job := newJob j mp (hRing q.header) none none s.nextOp 0 t.2
          ∃ u o, exec (.nodeCellar r n) s = .next u ∧ u.seqs = t.1.seqs ∧ u.ops = s.ops ++ [o] ∧ o.id = s.nextOp ∧ o.pack = none ∧
            o.node = some (r, n) ∧ o.done = false ∧ o.tr = mp ∧ o.body = .job (job.standing t.1 { o with body := .job job }) ∧
            (u.node r n).stat = .running ∧ u.mem = s.mem ∧ u.packs = s.packs))) ∧
    (∀ m, ready → nKind raw = 2 →
      let pages := pagesOf (nArg raw) (nVal raw) false ++ pagesOf (nDst raw) (nVal raw) true
        let cut := fun (a : Nat) (write : Bool) => s.cutVa .l2 q.pasid a write
        let foot := physRanges m ((pageRanges (nArg raw) (nVal raw)).filter (fun a => !cut a.1 false)) ++
          physRanges m ((pageRanges (nDst raw) (nVal raw)).filter (fun a => !cut a.1 true))
        probe s .l2 part q.pasid who (pages.filter (fun a => !cut a.1 a.2)) = .ok m → anyClosed s foot = false → behindRelay s foot = false →
        (∀ a ∈ pages, cut a.1 a.2 = true → q.fault = 0 → ∃ u, exec (.nodeCopy r n) s = .next u ∧ (u.replay r).fault = summaryOf cXLATE false false 0) ∧
        ((∀ i, i < nVal raw → cut (nArg raw + i) false = false ∧ cut (nDst raw + i) true = false) → exec (.nodeCopy r n) s = .next (acted 0 (registerBytes s none false (m.bytes (nDst raw)
        ((List.range (nVal raw)).map (fun i => memByte s (m.get (nArg raw + i))))))))) ∧
    (∀ m, ready → probe s .l2 part q.pasid who (pagesOf (nArg raw) 8 false) = .ok m → anyClosed s (physRanges m [(nArg raw, 8)]) = false →
        behindRelay s (physRanges m [(nArg raw, 8)]) = false →
      let w := vNat s m (nArg raw) 8
      (nKind raw = 3 → nVal raw ≤ w → exec (.nodeHostwait r n) s = .next (acted 0 s)) ∧
      (nKind raw = 4 → w < nNsucc raw →
        exec (.nodeCond r n) s = .next (acted 0 (s.modNode r n (fun m => { m with taken := some w })))) ∧
      (nKind raw = 4 → nNsucc raw ≤ w → exec (.nodeCond r n) s = .next (acted 5 s))) ∧
    (ready → nKind raw = 5 → recordsFull s (hRing q.header) = false →
      exec (.nodeEvent r n) s = .next (((produce s (hRing q.header) (mkRecord (BitVec.ofNat 64 (nVal raw)) 0 0 2 q.queue) (some (r, n))).modNode r n
        (fun m => { m with stat := .running })).leaveMerge who)) ∧
    ((s.node r n).stat = .running → nKind raw = 5 → (nodeOver s r n = true ↔ ∀ e ∈ s.records, e.node ≠ some (r, n))) ∧
    (q.started = true → q.finished = false → nodeOver s r n = true →
      let c := q.complete n
      (c.idle = false → exec (.nodeComplete r n) s = .next (ackInvals (s.modReplay r (fun _ => c)))) ∧
      (c.idle = true → recordsFull s (hRing q.header) = false → ∃ u, exec (.nodeComplete r n) s = .next u ∧ (u.replay r).finished = true ∧
        ((s.ring (hRing q.header)).en = true → u.records = s.records ++ [⟨hRing q.header, mkRecord (hTag q.header) q.fault c.status 1 q.queue, none⟩]) ∧
        (q.queue < s.queues.length → (u.queue q.queue).running = (s.queue q.queue).running - 1) ∧ u.mem = s.mem ∧ u.packs = s.packs)))

/-! ### Partitions, registers and the outside -/

/-- R169, R379 and R387 to R392: PRE of a running partition starts its halt; when its packs stand at headers and its operations are
over it halts, losing its tiles and L1 words; the images are saved, drained and restored in the order of the shadow's users, and
a restore leaves the packs running, an open section at its label. The model's choices: the free layout of an image's records,
the order of packs and blocks in an image, what may go on past a save, and INEXACT of a discarded tile (logs 41, 108 and 117). -/
def Obligations.PartitionEvents : Prop := ∀ (s : State) (q : Nat), q < s.parts.length →
  let r := s.part q
  let onlyImages := fun (u : State) => u.packs.length = s.packs.length ∧ ∀ p, ∃ im, u.pack p = { s.pack p with image := im }
  (s.answers = true → r.state = 0 → ∃ u, exec (.pctlPreWrite q) s = .next u ∧ u = { s with parts := u.parts, queues := u.queues } ∧
    u.part q = { r with state := 1, preAt := s.clk.toNat, halted := false } ∧ ∀ k, k ≠ q → u.part k = s.part k) ∧
  (r.state ≠ 0 → exec (.pctlPreWrite q) s = .next s) ∧
  (haltReady s q = true → (∀ w ∈ s.mem.windows, (s.launch w.2.launch).stat = .running ∧
      (s.launch w.2.launch).nextBlock ≠ (s.launch w.2.launch).blocks) → ∃ u, exec (.partitionHalted q) s = .next u ∧ SameRegs s u ∧
    u.mem.ram = s.mem.ram ∧ u.mem.l2 = s.mem.l2 ∧ u.mem.windows = s.mem.windows ∧
    (u.part q).halted = true ∧ (u.part q).haltclk = BitVec.ofNat 32 (s.clk.toNat - r.preAt) ∧
    (∀ e, e ∈ u.mem.l1 ↔ e ∈ s.mem.l1 ∧ partOf (e.1 % 256) ≠ q) ∧
    (∀ p, p < s.packs.length → isPre s q (s.pack p) = true → (u.pack p).stopped = true ∧ (u.pack p).lead.clause = none ∧
      (u.pack p).heel.clause = none ∧ (u.pack p).kennel = (s.pack p).kennel) ∧
    (∀ b, b < s.blocks.length → (s.block b).retired = false → (s.launch (s.block b).launch).part = q →
      (s.launch (s.block b).launch).preempt = true → ∀ t ∈ (u.block b).tiles, t = { lost := true })) ∧
  (r.state = 1 → r.halted = true → hasShadow s q false = true → ∃ u, exec (.shadowSaveDone q) s = .next u ∧ (u.part q).state = 2 ∧
    (u.part q).drain = (s.dev.ways == 11) ∧ u.mem = (if s.dev.ways = 11 then s.mem else (writeImages s q).mem) ∧ onlyImages u) ∧
  (r.drain = true → (∃ b rest, s.shadow = (q, b) :: rest) → ∃ u, exec (.drainDone q) s = .next u ∧
    (s.shadow.head? = some (q, true) → (u.part q).drain = false ∧ u = { readImages s q with parts := u.parts }) ∧
    (s.shadow.head? = some (q, false) → u.shadow = s.shadow.drop 1 ∧ onlyImages u ∧ u.mem = (writeImages s q).mem)) ∧
  (s.answers = true → r.state = 2 → ∃ u, exec (.pctlResumeWrite q) s = .next u ∧ (u.part q).state = 3 ∧ u.packs = s.packs ∧ u.mem = s.mem ∧
    u.shadow = (if s.dev.ways = 11 then s.shadow ++ [(q, true)] else s.shadow)) ∧
  (r.state ≠ 2 → exec (.pctlResumeWrite q) s = .next s) ∧
  (r.state = 3 → r.drain = false → hasShadow s q true = true →
    let back := if s.dev.ways = 11 then s else readImages s q
    ∃ u, exec (.restoreDone q) s = .next u ∧ SameRegs back u ∧ (u.part q).state = 0 ∧ u.mem.ram = s.mem.ram ∧ u.mem.l2 = s.mem.l2 ∧
    ∀ p, p < s.packs.length → isPre s q (s.pack p) = true → (s.pack p).stopped = true → (u.pack p).stopped = false ∧
      (∀ c, (back.pack p).sect = some c → splitUser (back.pack p).kennel = none → (u.pack p).lclk = c.lclk ∧
        (u.pack p).lead.path = some ⟨c.label, c.mask, c.rpc⟩ ∧ (u.pack p).heel.path = none) ∧
      ((back.pack p).sect = none → (u.pack p).lead = (back.pack p).lead ∧ (u.pack p).heel = (back.pack p).heel ∧
        (u.pack p).kennel = (back.pack p).kennel))

/-- R5, R347, R351, R367, R379, R389, R400, R401, R411, R423, R425, R427, R429, R431 and R433: what a write to each register sets,
when it is ignored, and that a read gives back the RW fields of queue, ring, partition and peer-window registers as written;
SIZE 13 to 15 reads 12. The model's readings: SIZE is kept as 12, a launch that waits for its window does not hold CMAP, ADDR of
ATTCMD and a base are used as written, and SNAPCTL's clearing bit leaves LOST and SRC (logs 69, 70, 80, 81 and 82). -/
def Obligations.RegisterWrites : Prop := ∀ (s : State) (v : W64), s.answers = true → s.queues.length = 64 → s.rings.length = 16 →
  s.parts.length = 4 → s.dev.peerwin.length = 16 →
  let wrote := fun (off : Nat) (P : W64 → Prop) => ∃ u, exec (.registerWrite off v) s = .next u ∧ (∃ w, bar0Answer u off = some w ∧ P w) ∧
    u.mem = s.mem ∧ u.packs = s.packs ∧ u.ops = s.ops
  let size := min 12 (bitsAt v 0 4)
  (∀ k, k < 64 → wrote (0x100000 + 0x40 * k) (fun w => w = BitVec.ofNat 64 (bitsAt v 0 57)) ∧
    wrote (0x100008 + 0x40 * k) (fun w => w = BitVec.ofNat 64 (bitsAt v 32 20 * 2 ^ 32 + bitsAt v 4 4 * 16 + size))) ∧
  (∀ k, k < 16 → wrote (0x110000 + 0x40 * k) (fun w => w = BitVec.ofNat 64 (bitsAt v 0 57)) ∧
    wrote (0x110008 + 0x40 * k) (fun w => w = BitVec.ofNat 64 (bitsAt v 32 20 * 2 ^ 32 + bitsAt v 16 16 * 2 ^ 16 + bitsAt v 8 8 * 2 ^ 8 +
      bitsAt v 4 1 * 16 + size)) ∧
    wrote (0x110010 + 0x40 * k) (fun w => w = BitVec.ofNat 64 (bitsAt v 16 16 * 2 ^ 16 + bitsAt v 0 8)) ∧
    wrote (0x161000 + 0x10 * k) (fun w => w = BitVec.ofNat 64 (bitsAt v 63 1 * 2 ^ 63 + bitsAt v 40 17 * 2 ^ 40 + bitsAt v 32 8 * 2 ^ 32 +
      bitsAt v 0 12))) ∧
  (∀ k, k < 4 → wrote (0x120000 + 8 * k) (fun w => w = (v.setWidth 32).setWidth 64) ∧
    wrote (0x130000 + 0x100 * k) (fun w => w = BitVec.ofNat 64 (bitsAt v 0 57)) ∧
    wrote (0x130008 + 0x100 * k) (fun w => w = (v.setWidth 32).setWidth 64) ∧
    wrote (0x130010 + 0x100 * k) (fun w => w = BitVec.ofNat 64 (bitsAt v 0 57)) ∧
    wrote (0x130020 + 0x100 * k) (fun w => w = BitVec.ofNat 64 (bitsAt v 0 57)) ∧
    (bitsAt v 0 2 = 0 → exec (.registerWrite (0x130028 + 0x100 * k) v) s = .next s) ∧
    (v.getLsbD 63 = false → exec (.registerWrite (0x140000 + 0x100 * k) v) s = .next s)) ∧
  wrote 0x408 (fun w => w = (v.setWidth 16).setWidth 64) ∧ wrote 0x160C00 (fun w => w = (v.setWidth 8).setWidth 64) ∧
  (∀ off, off % 8 = 0 → ownEvent off v = false → off < 0x100000 → off ≠ 0x400 → off ≠ 0x408 → off ≠ 0x700 →
    exec (.registerWrite off v) s = .next s) ∧
  exec (.xareleaseWrite v) s = .next (if s.launches.any (fun l => (l.stat == .running || l.stat == .ending) && l.grantsArray (bitsAt v 0 12)) then s
    else { s with arrays := mapDel s.arrays (bitsAt v 0 12) }) ∧
  (Inv s → ∃ u, exec (.shadowwaysWrite v) s = .next u ∧ u = { s with dev := u.dev, mem := u.mem } ∧ (∀ a, memByte u a = memByte s a) ∧
    u.dev.ways = (if ∀ q ∈ s.parts, q.state = 0 then (if bitsAt v 0 4 = 11 then 11 else 0) else s.dev.ways)) ∧
  (∃ u, exec (.cmapWrite v) s = .next u ∧ u = { s with dev := u.dev } ∧
    u.dev.affgib = (if ∀ l ∈ s.launches, l.stat = .window ∨ l.stat = .retired then v.setWidth 6 else s.dev.affgib)) ∧
  (∀ k, k < 4 → exec (.xlstatRfailClear k) s = .next (s.modPart k (fun q => { q with rfail := false }))) ∧
  (∃ u, exec (.plimitWrite v) s = .next u ∧ u = { s with dev := u.dev } ∧ u.dev.plimit.toNat = max 600 (min 2000 (bitsAt v 0 16))) ∧
  (s.dev.attBusy = true → exec (.attcmdWrite v) s = .next s) ∧
  (s.dev.attBusy = false → exec (.attcmdWrite v) s = .next { s with dev := { s.dev with attBusy := true, attAddr := bitsAt v 0 57 } }) ∧
  exec (.snapctlFullClear) s = .next { s with dev := { s.dev with snapctl := putBits s.dev.snapctl 3 1 0 } } ∧
  (v.getLsbD 0 = false → exec (.snaptrigWrite v) s = .next s) ∧
  (v.getLsbD 0 = true → s.dev.snapctl.getLsbD 0 = true → s.dev.snapctl.getLsbD 3 = false → ∃ u, exec (.snaptrigWrite v) s = .next u ∧
    u.dev.snapclk = s.clk ∧ bitsAt u.dev.snapctl 4 4 = 4 ∧ u.dev.snapctl.getLsbD 3 = true ∧ u.packs = s.packs ∧ u.mem = s.mem)

/-- R394 to R400, R403 and R406: a completion that covers the access and leads to device, peer or host memory is cached, and every
waiting operation has the page; one that does not is a page fault, asked for in a group when the allowance covers it; a response
asks again, or fails the pages; a timed-out request fails; an invalidation drops what it names but for what an engine's
operations have pinned; an aborted region whose loads are over goes on at its restart point. The model's readings: which caches
a completion fills, which group a shared page belongs to, and in which XLSTAT a Response Failure shows (logs 63, 64 and 65). -/
def Obligations.TranslationEvents : Prop := ∀ (s : State) (m : Merge) (size taddr ix : Nat) (r w u : Bool),
  s.mergeOf m.pasid m.page = some m →
  let ok := fun (v : Nat) => if m.writers.contains v then w else r
  let good := m.waiters.filter ok
  let bad := m.waiters.filter (fun v => !ok v)
  let e := tlbOf .l2 m.pasid m.page size taddr r w
  let at' := s.target (e.tbase + (4096 * m.page - e.base))
  let still := waitingOps s m.waiters = [] ∧ (∀ v ∈ m.waiters, isOpWaiter v = false) ∧ m.waiters ≠ []
  let served := fun (t : State) (ph : Nat) => t.packs = s.packs ∧ t.mem = s.mem ∧ ∀ o ∈ t.ops, o.done = false →
    m.waiters.contains (opWaiter o.id) = true → ∃ g ∈ o.tr, g.1 = m.page ∧
      ((∀ q ∈ s.ops, q.id = o.id → ∀ h ∈ q.tr, h.1 ≠ m.page) → g.2 = ph)
  (m.st = .ats → u = true → bad = [] → ∃ t, exec (.atsTranslationCompletion m.pasid m.page size taddr r w u) s = .next t ∧
    served t ((untrBase + 4096 * m.page) / 4096) ∧ t.tlbs = s.tlbs ∧ t.mergeOf m.pasid m.page = none) ∧
  (m.st = .ats → u = false → bad = [] → good ≠ [] → ∀ ph, (at' = .device ph ∨ at' = .host ph ∨ ∃ a k, at' = .peer a k ∧ ph = linked a k) →
    ∃ t, exec (.atsTranslationCompletion m.pasid m.page size taddr r w u) s = .next t ∧ served t (ph / 4096) ∧ e ∈ t.tlbs ∧
      t.merges = s.merges.filter (fun n => !n.isOf m.pasid m.page)) ∧
  (m.st = .ats → bad ≠ [] → (u = true ∨ at' ≠ .none ∨ good = []) → m.tries < 16 → s.priStopped = false → still →
    (∀ p, (s.pack p).region = none) →
    ∃ t, exec (.atsTranslationCompletion m.pasid m.page size taddr r w u) s = .next t ∧ t.packs = s.packs ∧ t.mem = s.mem ∧
      (∃ n, t.mergeOf m.pasid m.page = some n ∧ n.st = .pri ∧ n.waiters = bad) ∧
      ∃ g ∈ t.groups, g.index = none ∧ g.who = bad.headD 0 ∧ (m.pasid, m.page, bad.any m.writers.contains) ∈ g.pages) ∧
  (m.st = .ats → still → ∃ t, exec (.atsCompletionTimeout m.pasid m.page) s = .next t ∧ t.packs = s.packs ∧
    ∃ n, t.mergeOf m.pasid m.page = some n ∧ n.st = .failed ∧ n.waiters = m.waiters) ∧
  (∀ g, (readyGroups s).head? = some g → s.priStopped = false → s.outstanding + min g.pages.length s.dev.allowance ≤ s.dev.allowance →
    ∃ t k, exec .pageRequestGroupSend s = .next t ∧ t.packs = s.packs ∧ t.mem = s.mem ∧
      { g with index := some k, pages := g.pages.take s.dev.allowance } ∈ t.groups ∧ t.sent = s.sent ++ [.group k (g.pages.take s.dev.allowance)]) ∧
  (∀ g, s.groups.find? (fun g => g.index == some ix) = some g → g.pages = [(m.pasid, m.page, m.write)] → m.st = .pri →
    g.part < 4 → g.part < s.parts.length →
    (∃ t, exec (.prgResponseSuccess ix) s = .next t ∧ t.packs = s.packs ∧ t.sent = s.sent ++ [.ats m.pasid m.page m.write] ∧
      (∃ n, t.mergeOf m.pasid m.page = some n ∧ n.st = .ats ∧ n.tries = m.tries + 1) ∧ ∀ h ∈ t.groups, h.index ≠ some ix) ∧
    (still → ∃ t, exec (.prgResponseInvalidRequest ix) s = .next t ∧
      (∃ n, t.mergeOf m.pasid m.page = some n ∧ n.st = .failed) ∧ (t.part g.part).rfail = (s.part g.part).rfail) ∧
    (still → ∃ t, exec (.prgResponseFailure ix) s = .next t ∧
      (∃ n, t.mergeOf m.pasid m.page = some n ∧ n.st = .failed) ∧ (t.part g.part).rfail = true)) ∧
  (∀ base, s.invals.length < 32 → ∃ t, exec (.atsInvalidateRequest m.pasid base size) s = .next t ∧ t.packs = s.packs ∧ t.mem = s.mem ∧ t.ops = s.ops ∧
    ∀ n ∈ t.tlbs, n ∈ s.tlbs ∧ (s.pins n = true ∨ ¬ (n.pasid = m.pasid ∧ n.base < base + size ∧ base < n.base + n.size))) ∧
  (∀ p a, (s.pack p).region = some a → a.aborted = true → (s.pack p).retired = false → (s.pack p).stopped = false →
    (∀ o ∈ s.ops, o.pack = some p → o.done = false → o.k ≠ some .ld) →
    (∀ n ∈ s.merges, n.st = .ats ∨ n.st = .pri → n.waiters.any (packWaiters s p).contains = false) → a.wants = [] →
    ∃ t, exec (.regionRequeue p) s = .next t ∧ t.mem = s.mem ∧ (t.pack p).region = none ∧
      (t.pack p).lead = { (s.pack p).lead with stall := none } ∧ (t.pack p).kennel = (s.pack p).kennel ∧ SameRegs s t ∧
      ∀ r, r ≠ p → t.pack r = s.pack r)

/-- R116, R117, R126, R133, R366, R423, R426 and R427: the host and a peer read, write and update device memory at the L2, each byte
once; an address in no stack range, or any before the part is up, is Unsupported Request and changes nothing. The model's
readings: a read of poison returns the data, and where a peer's held add counts (logs 73 and 79). -/
def Obligations.OutsideAccesses : Prop := ∀ (s : State) (d n : Nat) (ks : List Nat) (bytes : List (BitVec 8)), s.mem.windows = [] →
  let refused := fun (e : Instr) => exec e s = .next (s.send .unsupported)
  (dpaRange s d n = none ∨ s.up = false → refused (.hostBar2Read d n) ∧ refused (.peerAccessIn (.load d n))) ∧
  (dpaRange s d bytes.length = none ∨ s.up = false → refused (.hostBar2Write d bytes) ∧ refused (.peerAccessIn (.store d bytes))) ∧
  (dpaRange s d n = some ks → s.up = true → anyClosed s (ks.map (fun k => (k, 1))) = false →
    let read := fun (e : Instr) => exec e s = .next (s.send (.readData (ks.map (memByte s))))
    read (.hostBar2Read d n) ∧ read (.peerAccessIn (.load d n)) ∧
    (Inv s → n = 4 ∨ n = 8 → ks = (List.range n).map (ks.headD 0 + ·) → ks.headD 0 % n = 0 → ks.headD 0 + n ≤ busBase → ∀ op v cmp,
      let old := memNat s (ks.headD 0) n
      let updates := fun (e : Instr) (op : Option AtomOp) (v cmp : Nat) => ∃ u, exec e s = .next u ∧ u.packs = s.packs ∧
        memNat u (ks.headD 0) n = (atomWrite op n old v cmp).getD old % 2 ^ (8 * n) ∧
        (∀ a, (a < ks.headD 0 ∨ ks.headD 0 + n ≤ a) → memByte u a = memByte s a) ∧ .readData (leBytes old n) ∈ u.sent
      updates (.peerAccessIn (.atomic op d n v)) (some op) v.toNat 0 ∧ updates (.peerAccessIn (.cas d n cmp v)) none v.toNat cmp.toNat)) ∧
  (dpaRange s d bytes.length = some ks → s.up = true → anyClosed s (ks.map (fun k => (k, 1))) = false → ks.Nodup →
    (∀ k ∈ ks, k < busBase) → Inv s →
    let wrote := fun (e : Instr) => ∃ u, exec e s = .next u ∧ u.packs = s.packs ∧ (∀ e ∈ ks.zip bytes, memByte u e.1 = e.2) ∧
      ∀ a, a ∉ ks → memByte u a = memByte s a
    wrote (.hostBar2Write d bytes) ∧ wrote (.peerAccessIn (.store d bytes))) ∧
  (∀ op fmt v, dpaRange s d (fatFmt fmt).bytes = some ks → s.up = true → anyClosed s (ks.map (fun k => (k, 1))) = false →
    ks.headD 0 + (fatFmt fmt).bytes ≤ busBase → Inv s → recordsFull s 0 = false →
    let f := fatFmt fmt
    let old := f.ff.read (memNat s (ks.headD 0) f.bytes)
    let x := f32 (if f = .f32 then v else rne32 (f.ff.read (v.toNat % 65536)))
    let new := match op with | .add => fAdd .rn old x | .min => fMin old x | .max => fMax old x
    ∃ u, exec (.peerAccessIn (.fatom op fmt d v)) s = .next u ∧ u.packs = s.packs ∧
      memNat u (ks.headD 0) f.bytes = f.ff.write .rn false 0 new % 2 ^ (8 * f.bytes) ∧
      ∀ a, (a < ks.headD 0 ∨ ks.headD 0 + f.bytes ≤ a) → memByte u a = memByte s a)

/-- R383, R407, R418, R420, R424, R426, R430, R431, R433 and R434: errors, failures, links, snapshots and throttling change the
registers that report them, poison or fence what failed, and change no register of a pack; a failed cluster's launches and, at
the thermal trip, every launch end. The model's readings: the pack of a cluster failure's fault record, when reason 2 is set,
how a restore raises CLKN, the packs at a thermal trip, and the order in which a failed port's requests go out again (logs 74,
76, 77, 78 and 122). -/
def Obligations.HealthEvents : Prop := ∀ (s : State) (n : Nat),
  let d := s.dev
  let keeps := fun (u : State) => u.packs = s.packs ∧ u.ops = s.ops ∧ u.launches = s.launches
  (4 * n < busBase → ∃ u, exec (.uncorrectableError n) s = .next u ∧ keeps u ∧ u.dev.uecount = min 255 (d.uecount + 1) ∧
    poisoned u (4 * n) = true ∧ ∀ a, memByte u a = memByte s a) ∧
  (∃ u, exec .correctableError s = .next u ∧ keeps u ∧ u.mem = s.mem ∧ u.dev.cecount = min 0xFFFFFFFF (d.cecount + 1)) ∧
  (∀ st, n < 12 → st < 4 → d.linkstat.length = 12 → ∃ u, exec (.linkPortStateChange n st) s = .next u ∧ keeps u ∧ u.mem = s.mem ∧
    bitsAt (nth 0 u.dev.linkstat n) 0 2 = st ∧ (st = 3 → u.dev.replace = true ∧ u.dev.reasons.getLsbD 3 = true) ∧
    (st = 2 → bitsAt (nth 0 d.linkstat n) 0 2 ≠ 2 → bitsAt (nth 0 u.dev.linkstat n) 56 8 = (Config.linkPeer s.fresh n).toNat) ∧
    (st ≠ 2 → bitsAt (nth 0 d.linkstat n) 0 2 = 2 → ∀ e ∈ onPort s n, e ∈ u.dev.relays) ∧
    ∀ k, k ≠ n → nth 0 u.dev.linkstat k = nth 0 d.linkstat k) ∧
  (n < 12 → d.linkstat.length = 12 → ∃ u, exec (.linkFlitReplay n) s = .next u ∧ keeps u ∧ u.mem = s.mem ∧
    bitsAt (nth 0 u.dev.linkstat n) 32 16 = min 65535 (bitsAt (nth 0 d.linkstat n) 32 16 + 1)) ∧
  (∃ u, exec (.dramRowFailure true) s = .next s ∧ exec (.dramRowFailure false) s = .next u ∧ keeps u ∧ u.mem = s.mem ∧
    u.dev.replace = true ∧ u.dev.reasons.getLsbD 2 = true) ∧
  (Inv s → ∃ u, exec .l2WayFailure s = .next u ∧ keeps u ∧ (∀ a, memByte u a = memByte s a) ∧ u.dev.replace = true ∧ u.dev.reasons.getLsbD 4 = true) ∧
  (n < 256 → n ∉ d.badUnits → d.sparesUsed.length = 8 → ∃ u, exec (.cellarUnitFailure n) s = .next u ∧ keeps u ∧ u.mem = s.mem ∧
    (nth 0 d.sparesUsed (n / 32) < 4 → nth 0 u.dev.sparesUsed (n / 32) = nth 0 d.sparesUsed (n / 32) + 1 ∧ u.dev.spares = d.spares + 1 ∧
      u.dev.badUnits = d.badUnits) ∧
    (4 ≤ nth 0 d.sparesUsed (n / 32) → n ∈ u.dev.badUnits ∧ u.dev.replace = true ∧ u.dev.reasons.getLsbD 1 = true)) ∧
  (n < 64 → n ∉ d.fenced → ∃ u, exec (.clusterFailure n) s = .next u ∧ SameRegs s u ∧ n ∈ u.dev.fenced ∧ u.dev.replace = true ∧
    u.dev.repair = d.repair ||| (1#72 <<< physCluster d.clusten n) ∧
    u.dev.reasons.getLsbD 0 = true ∧
    ∀ i, i < s.launches.length → (packOn s i n).isSome = true → (s.launch i).stat = .running →
      (u.launch i).stat = .ending ∨ (u.launch i).stat = .retired) ∧
  (d.snapctl.getLsbD 0 = true → d.snapctl.getLsbD 1 = true → d.snapctl.getLsbD 3 = false → ∃ u, exec .snapInEdge s = .next u ∧ keeps u ∧
    u.mem = s.mem ∧ u.dev.snapclk = s.clk ∧ bitsAt u.dev.snapctl 4 4 = 2 ∧ u.dev.snapctl.getLsbD 3 = true) ∧
  (d.snapctl.getLsbD 0 = true → d.snapctl.getLsbD 1 = true → d.snapctl.getLsbD 3 = true →
    let c := if d.snapLow = some s.clk.toNat then putBits d.snapctl 4 4 (min (bitsAt d.snapctl 4 4) 2)
      else putBits d.snapctl 16 16 (min 65535 (bitsAt d.snapctl 16 16 + 1))
    exec .snapInEdge s = .next { s with dev := { d with snapctl := c } }) ∧
  (d.snapctl.getLsbD 0 = false ∨ d.snapctl.getLsbD 1 = false → exec .snapInEdge s = .next s) ∧
  (∀ c, d.snapLow = some c → c + 1500 ≤ s.clk.toNat → exec .snapOutRelease s = .next { s with
    dev := { d with snapLow := none }, sent := s.sent ++ [.snapOut false] }) ∧
  (n < d.perm.length → nth 32 d.perm n ≤ 32 → 8 < nth 32 d.perm n → d.hot = true → d.thrAt + 1500 ≤ s.clk.toNat →
    ∃ u, exec (.throttleStepDown n) s = .next u ∧ keeps u ∧ u.mem = s.mem ∧ u.dev.clkn = max 4 (d.clkn - 1) ∧
      nth 32 u.dev.perm n < nth 32 d.perm n ∧ 8 ≤ nth 32 u.dev.perm n) ∧
  (n < d.perm.length → nth 32 d.perm n < 32 → d.hot = false → d.hotAt + 1500000 ≤ s.clk.toNat →
    ∃ u, exec (.throttleRestore n) s = .next u ∧ keeps u ∧ u.mem = s.mem ∧ u.dev.clkn = min 16 (d.clkn + 1) ∧
      nth 32 d.perm n < nth 32 u.dev.perm n ∧ nth 32 u.dev.perm n ≤ 32) ∧
  (d.burning = true → d.tripped = false → ∃ u, exec .thermalTrip s = .next u ∧ SameRegs s u ∧ u.dev.tripped = true ∧ u.dev.replace = true ∧
    u.dev.reasons.getLsbD 6 = true ∧ ∀ i, i < s.launches.length → (s.launch i).stat ≠ .retired →
      ((u.launch i).stat = .ending ∨ (u.launch i).stat = .retired) ∧ (u.launch i).summary = 0 ∧ (u.launch i).failed = true)

/-- R410, R411, R427 to R430: after power-on reset the boot processor is at its first step, every register and queue, ring and
partition at its reset value, every DRAM byte 0, memory outside the device and the repair record as they were; its four steps,
one after the other, choose the firmware slot that verifies, enable the clusters that the repair record leaves, clear every DRAM
byte and train the links, or end in FAILED with the error of the step; the attestation report, of which bytes 32 to 191 hold the
digest of the firmware that runs, the variant, HEALTH, BOOTSTAT, zeros and the identity key, and bytes 192 to 255 its signature,
stands at the address of the command, and BUSY is clear. The model's choices: CLK is 0 after power-on reset, ADDR is used as
written, and a boot step is one clock (logs 2, 80 and 84). -/
def Obligations.ResetAndAttestation : Prop := ∀ (s : State),
  let state := fun (u : State) => bitsAt u.dev.bootstat 0 4
  (∃ u, exec .powerOnReset s = .next u ∧ (∀ a, busBase ≤ a → Memory.wf s.mem.ram = true → ramRead u a = ramRead s a) ∧
    (∀ a, a < busBase → memByte u a = 0) ∧ u.packs = [] ∧ u.blocks = [] ∧ u.launches = [] ∧ u.ops = [] ∧
    u.queues = List.replicate 64 {} ∧ u.rings = List.replicate 16 {} ∧ u.parts = List.replicate 4 {} ∧ u.clk = 0 ∧
    u.dev.plimit = 2000 ∧ u.dev.clkn = 16 ∧ u.aff = 1 ∧ u.dev.ways = 0 ∧ u.dev.snapctl = 0 ∧ u.dev.hvec = 0 ∧
    state u = 1 ∧ u.dev.repair = s.dev.repair ∧
    (let v := bootNext (bootNext (bootNext (bootNext u)))
     state v = 5 ∨ state v = 15)) ∧
  (let u := bootNext s
   let fails := fun (err : Nat) => state u = 15 ∧ bitsAt u.dev.bootstat 8 8 = err
   (state s = 1 → (∀ b err, verify = (some b, err) → state u = 2 ∧ u.dev.bootstat.getLsbD 4 = b ∧ bitsAt u.dev.bootstat 8 8 = err) ∧
     ∀ err, verify = (none, err) → fails err) ∧
   (state s = 2 → (Config.fusesOk = false → fails 5) ∧
     (Config.fusesOk = true → state u = 3 ∧ u.dev.clusten = Config.clustenOf s.dev.repair ∧ u.dev.badxa = Config.badxa u.dev.clusten ∧
       u.dev.defsig = defsigOf u.dev.clusten u.dev.badxa)) ∧
   (state s = 3 → (∀ a, a < busBase → memByte u a = 0) ∧ (Config.dramOk = false → fails 4) ∧ (Config.dramOk = true → state u = 4)) ∧
   (state s = 4 → s.dev.linkstat.length = 12 → state u = 5 ∧ ∀ i, i < 12 → bitsAt (nth 0 u.dev.linkstat i) 0 2 =
     if Config.linkTrains s.fresh i then 2 else 3)) ∧
  (s.dev.attBusy = true → s.mem.windows = [] →
    let key := fun i => s.busKey (s.dev.attAddr + i)
    let body := reportBody s ((List.range 32).map (fun i => memByte s (key i)))
    anyClosed s ((List.range 256).map (fun i => (key i, 1))) = false → ((List.range 256).map key).Nodup → Inv s →
    ∃ u, exec .attestationReport s = .next u ∧ u.dev = { s.dev with attBusy := false } ∧ u.packs = s.packs ∧
      (∀ i, i < 192 → memByte u (key i) = nth 0 body i) ∧
      (∀ i, i < 64 → memByte u (key (192 + i)) = nth 0 (leBytes (edSign Config.seed body).toNat 64) i) ∧
      ∀ a, a ∉ (List.range 256).map key → memByte u a = memByte s a)

/-! ### The machine as a whole -/

/-- R193 to R201: every well-formed instruction comes back from its words, whatever follows a single word. -/
def Obligations.DecodeInvertsEncode : Prop := ∀ i : Instr, i.wellFormed = true → isEvent i = false →
  (∃ w, encode i = [w] ∧ i.words = 1 ∧ ∀ x, decode w x = some i) ∨ (∃ w x, encode i = [w, x] ∧ i.words = 2 ∧ decode w x = some i)

/-- R200 and R201: what decodes is a well-formed instruction whose words are the bits that were decoded: no bit is without meaning. -/
def Obligations.EncodeInvertsDecode : Prop := ∀ (w x : W64) (i : Instr), decode w x = some i →
  i.wellFormed = true ∧ (encode i = [w] ∨ encode i = [w, x])

/-- R193 to R201: words that the spec writes out, and words put together from its encoding tables, decode to their instructions. -/
def Obligations.DecodedWords : Prop :=
  decode 0x1030A00000000007 0 = some (.psrd 7 389 0) ∧ decode 0xFC48038CF0000007 0 = some (.xmv 7 64 56 414) ∧
  decode 0xFD07820000000007 0 = some (.accept 7 60 32) ∧ decode 0xC270C23FE00000D7 0 = some (.cmoBmp 7 .l2 390 ⟨8, 511, 0⟩) ∧
  decode 0xF840400000000007 0 = some (.mzero 7 2) ∧ decode 0x02C0000000001027 0 = some (.waitk 7 .cpy 1) ∧
  decode 0x1100000000000007 0 = some (.prft 7) ∧ decode 0 0 = none ∧ decode 0xFFFFFFFFFFFFFFFF 0 = none

/-- R185, R202, R291, and log 1: what a step does. A turn of a slot runs the instruction that the words at its PC decode to, a
unit's turn its event, each with CLK one higher and what happens of itself at the clock done first, or, as a further act of the
clock that has begun, with CLK as it is, unless it would come to a barrier out of order; a step with nothing named takes the
first thing that is due. The model's choices: which act comes next and what shares its clock, when code words are fetched, and
what happens of itself first (logs 1, 98 and 110). -/
def Obligations.StepRunsDecoded : Prop := ∀ (s : State) (rest : List Act),
  let now := nextClock s
  (∀ (same : Bool) (a : Act), s.agenda = (if same then [.together, a] else [a]) ++ rest →
    let t := actState s same a rest
    (∀ p k q c w x i u, a = .issue p k → turnOf t p k = some u →
      ((u.pack p).slot k).path = some q → ((u.pack p).slot k).clause = some c → fetchCode u p k q.pc = .ok w →
      (if isPair w = true ∧ q.pc + 8 < c.fall then fetchCode u p k (q.pc + 8) else .ok 0) = .ok x → decode w x = some i →
      step s = exec i u ∧ u.focus = (p, k) ∧ u.mem = t.mem ∧ u.ops = t.ops ∧ SameRegs t u) ∧
    (∀ e, a = .unit e → isEvent e = true → step s = exec e t) ∧
    (same = false → t = { now with agenda := rest, barActs := barActsOf now a }) ∧
    (same = true → (∀ e ∈ barActsOf s a, ∀ d ∈ s.barActs, d.block = e.block → d.bar = e.bar →
        d.kind ≤ e.kind ∧ (d.kind = e.kind → d.pk ≤ e.pk)) →
      t = { s with agenda := rest, barActs := s.barActs ++ barActsOf s a })) ∧
  (∀ a as u, s.agenda = [] → dueActs now = a :: as → stepAct now a = .next u → step s = .next u) ∧
  (s.dev.booting = false → (∀ l ∈ s.launches, l.stat ≠ .ending) → s.mshr.rejected = [] → s.mshr.held = [] → (∀ q, (s.part q).state ≠ 1) →
    (∀ x ∈ s.packs, ∀ e ∈ x.pending, e.slot = none) →
    (∀ o ∈ s.ops, (∀ c, o.body = .copy c → c.late = false ∧ c.held = false) ∧
      (∀ j, o.body = .job j → j.stage ≠ .held ∨ j.discarded = true) ∧
      (∀ as n d sx sc pol, o.body = .load as n d sx sc pol → o.done = true ∨ ∀ a ∈ as, (o.tr.at a.va).isSome)) →
    now = { passClocks s 1 with barActs := [] }) ∧
  (passClocks s 1).clk = s.clk + 1 ∧ (passClocks s 1).packs = s.packs ∧ (passClocks s 1).mem = s.mem

/-- R188, R201, R202, R371, R372 and R382: an instruction of another class than its clause's, in a wrong place, privileged in user
mode, with a field that is not legal or a register beyond the allocation takes ILLOP with its offset, and one with an operand
that an outstanding operation will write waits; for every instruction. -/
def Obligations.IssueChecks : Prop := ∀ (i : Instr) (s : State) (cx : Cx) (t : State) (p : Nat), isEvent i = false →
  cxOf i s = some (cx, t) → cx.packs = [p] →
  let legal := placeOk i cx (t.pack p).priv = true ∧ i.wellFormed = true ∧ i.vtop ≤ (t.pack p).alloc
  (¬ legal → TrapsAtOnce t p cx.slot → exec i s = .next (settleEnded (takeTrap (t.leaveMerge (waiterOf p cx.slot)) p cx.slot cILLOP (BitVec.ofNat 64 cx.pc)))) ∧
  (legal → interlocked t i p = true → exec i s = .next (t.modSlot p cx.slot (fun sl => sl.block .interlock t.clk.toNat)))

/-- THE INVARIANT: every step keeps DRAM and outside memory, the L2's words, the weight buffer, the scratchpads and the tiles in
canonical form. -/
def Obligations.StepKeepsInv : Prop := ∀ s t : State, Inv s → step s = .next t → Inv t

/-- R113: a second invariant: every step keeps the operations in the order of their numbers, all below the number of the next one,
so that a number names one operation. -/
def Obligations.OperationNumbers : Prop := ∀ s t : State, Numbered s → step s = .next t → Numbered t

/-- The two invariants hold at reset. R347, R367, R379, R401, R411, R427, R430 and R433: what the spec gives for reset: every
register of the queues, rings and partitions 0, the partitions in RUN, AFFGIB reading 1, PLIMIT 2,000 W, CLKN 16, MINBANKS 32,
HEALTH 0, and every DRAM byte 0. -/
def Obligations.Reset : Prop :=
  (Inv State.reset ∧ Numbered State.reset) ∧
  ((∀ q r, r = 0 ∨ r = 8 ∨ r = 16 ∨ r = 24 → queueReg (State.reset.queue q) r = 0) ∧
    (∀ g r, r = 0 ∨ r = 8 ∨ r = 16 ∨ r = 24 ∨ r = 32 → ringReg (State.reset.ring g) r = 0) ∧
    (∀ q r, partReg (State.reset.part q) r = 0) ∧ (∀ q, (State.reset.part q).xlstat = 0 ∧ (State.reset.part q).intrude = 0) ∧
    State.reset.aff = 1 ∧ State.reset.dev.plimit = 2000 ∧ State.reset.thr = 0x0000000000002010#64 ∧ State.reset.health = 0 ∧
    ∀ a, a < 2 ^ 39 → memByte State.reset a = 0)
end

