-- ==== Sys2Proof/Laws/Encoding.lean ====
section
/-!
SUPPORT. The fields of an encoded word (R193 to R196): what each field of formats A, I, M and B reads from it.
-/
namespace Sys2Proof

/-- A field that lies in the low part of a concatenation. -/
theorem extract_low {n m : Nat} (x : BitVec n) (y : BitVec m) {lo k : Nat} (h : lo + k ≤ m) :
    (x ++ y).extractLsb' lo k = y.extractLsb' lo k := by
  apply BitVec.eq_of_getLsbD_eq
  intro i hi
  simp only [BitVec.getLsbD_extractLsb', BitVec.getLsbD_append, hi, decide_true, Bool.true_and]
  rw [if_pos (by omega)]
/-- A field that lies in the high part. -/
theorem extract_high {n m : Nat} (x : BitVec n) (y : BitVec m) {lo k : Nat} (h : m ≤ lo) :
    (x ++ y).extractLsb' lo k = x.extractLsb' (lo - m) k := by
  apply BitVec.eq_of_getLsbD_eq
  intro i hi
  simp only [BitVec.getLsbD_extractLsb', BitVec.getLsbD_append, hi, decide_true, Bool.true_and]
  rw [if_neg (by omega)]
  congr 1
  omega
/-- A whole word. -/
theorem extract_all {n : Nat} (x : BitVec n) : x.extractLsb' 0 n = x := by
  apply BitVec.eq_of_getLsbD_eq
  intro i hi
  simp [hi]
/-- A word is its two parts. -/
theorem extract_join {n : Nat} (x : BitVec n) {a b : Nat} (h : a + b = n) :
    x = (x.extractLsb' b a ++ x.extractLsb' 0 b).cast h := by
  apply BitVec.eq_of_getLsbD_eq
  intro i hi
  simp only [BitVec.getLsbD_cast, BitVec.getLsbD_append, BitVec.getLsbD_extractLsb']
  by_cases hb : i < b
  · simp [hb]
  · rw [if_neg (by omega), show b + (i - b) = i by omega]
    simp [show i - b < a by omega]

/-- Decoding from its two steps. -/
theorem decode_of_raw {w x : W64} {i : Instr} (h : decodeRaw w x = some i) (hw : i.wellFormed = true) : decode w x = some i := by
  simp only [decode, h, hw, if_true]
/-- What decodes is well formed. -/
theorem wellFormed_of_decode {w x : W64} {i : Instr} (h : decode w x = some i) : i.wellFormed = true := by
  simp only [decode] at h
  split at h
  · split at h
    · cases h; assumption
    · cases h
  · cases h

/-! ### Format A -/
section
variable (op : BitVec 10) (d a b c : Fld) (m : BitVec 14) (g : Guard)
theorem encA_op : (encA op d a b c m g).extractLsb' 54 10 = op := by
  simp (disch := omega) only [encA, extract_high, extract_all, Nat.reduceSub]
theorem encA_group : (encA op d a b c m g).extractLsb' 58 6 = op.extractLsb' 4 6 := by
  simp (disch := omega) only [encA, extract_high, Nat.reduceSub]
theorem encA_d : (Fields.mk (encA op d a b c m g)).d = d := by
  simp (disch := omega) only [Fields.d, encA, extract_high, extract_low, extract_all, Nat.reduceSub]
theorem encA_a : (Fields.mk (encA op d a b c m g)).a = a := by
  simp (disch := omega) only [Fields.a, encA, extract_high, extract_low, extract_all, Nat.reduceSub]
theorem encA_b : (Fields.mk (encA op d a b c m g)).b = b := by
  simp (disch := omega) only [Fields.b, encA, extract_high, extract_low, extract_all, Nat.reduceSub]
theorem encA_c : (Fields.mk (encA op d a b c m g)).c = c := by
  simp (disch := omega) only [Fields.c, encA, extract_high, extract_low, extract_all, Nat.reduceSub]
theorem encA_mod : (Fields.mk (encA op d a b c m g)).mod = m := by
  simp (disch := omega) only [Fields.mod, encA, extract_high, extract_low, extract_all, Nat.reduceSub]
theorem encA_guard : (Fields.mk (encA op d a b c m g)).guard = g := by
  simp (disch := omega) only [Fields.guard, encA, extract_low, extract_all]
end

/-! ### Format I -/
section
variable (op : BitVec 10) (d a : Fld) (imm : BitVec 32) (g : Guard)
theorem encI_op : (encI op d a imm g).extractLsb' 54 10 = op := by
  simp (disch := omega) only [encI, extract_high, extract_all, Nat.reduceSub]
theorem encI_group : (encI op d a imm g).extractLsb' 58 6 = op.extractLsb' 4 6 := by
  simp (disch := omega) only [encI, extract_high, Nat.reduceSub]
theorem encI_d : (Fields.mk (encI op d a imm g)).d = d := by
  simp (disch := omega) only [Fields.d, encI, extract_high, extract_low, extract_all, Nat.reduceSub]
theorem encI_a : (Fields.mk (encI op d a imm g)).a = a := by
  simp (disch := omega) only [Fields.a, encI, extract_high, extract_low, extract_all, Nat.reduceSub]
theorem encI_imm : (Fields.mk (encI op d a imm g)).imm = imm := by
  simp (disch := omega) only [Fields.imm, encI, extract_high, extract_low, extract_all, Nat.reduceSub]
theorem encI_guard : (Fields.mk (encI op d a imm g)).guard = g := by
  simp (disch := omega) only [Fields.guard, encI, extract_low, extract_all]
end

/-! ### Format M -/
section
variable (op : BitVec 10) (d : Fld) (m : MAddr) (wd : BitVec 3) (pol : BitVec 2) (q : BitVec 4) (g : Guard)
theorem encM_op : (encM op d m wd pol q g).extractLsb' 54 10 = op := by
  simp (disch := omega) only [encM, extract_high, extract_all, Nat.reduceSub]
theorem encM_group : (encM op d m wd pol q g).extractLsb' 58 6 = op.extractLsb' 4 6 := by
  simp (disch := omega) only [encM, extract_high, Nat.reduceSub]
theorem encM_d : (Fields.mk (encM op d m wd pol q g)).d = d := by
  simp (disch := omega) only [Fields.d, encM, extract_high, extract_low, extract_all, Nat.reduceSub]
theorem encM_maddr : (Fields.mk (encM op d m wd pol q g)).maddr = m := by
  have h1 : (encM op d m wd pol q g).extractLsb' 38 7 = m.base := by
    simp (disch := omega) only [encM, extract_high, extract_low, extract_all, Nat.reduceSub]
  have h2 : (encM op d m wd pol q g).extractLsb' 29 9 = m.index := by
    simp (disch := omega) only [encM, extract_high, extract_low, extract_all, Nat.reduceSub]
  have h3 : (encM op d m wd pol q g).extractLsb' 13 16 = m.off := by
    simp (disch := omega) only [encM, extract_high, extract_low, extract_all, Nat.reduceSub]
  simp only [Fields.maddr, h1, h2, h3]
theorem encM_width : (Fields.mk (encM op d m wd pol q g)).width = wd := by
  simp (disch := omega) only [Fields.width, encM, extract_high, extract_low, extract_all, Nat.reduceSub]
theorem encM_pol : (Fields.mk (encM op d m wd pol q g)).pol = pol := by
  simp (disch := omega) only [Fields.pol, encM, extract_high, extract_low, extract_all, Nat.reduceSub]
theorem encM_qual : (Fields.mk (encM op d m wd pol q g)).qual = q := by
  simp (disch := omega) only [Fields.qual, encM, extract_high, extract_low, extract_all, Nat.reduceSub]
theorem encM_guard : (Fields.mk (encM op d m wd pol q g)).guard = g := by
  simp (disch := omega) only [Fields.guard, encM, extract_low, extract_all]
end

/-! ### Format B -/
section
variable (op : BitVec 10) (kind : BitVec 4) (cnd : BitVec 7) (tgt : BitVec 24) (rcv : BitVec 15) (g : Guard)
theorem encB_op : (encB op kind cnd tgt rcv g).extractLsb' 54 10 = op := by
  simp (disch := omega) only [encB, extract_high, extract_all, Nat.reduceSub]
theorem encB_group : (encB op kind cnd tgt rcv g).extractLsb' 58 6 = op.extractLsb' 4 6 := by
  simp (disch := omega) only [encB, extract_high, Nat.reduceSub]
theorem encB_kind : (Fields.mk (encB op kind cnd tgt rcv g)).kind = kind := by
  simp (disch := omega) only [Fields.kind, encB, extract_high, extract_low, extract_all, Nat.reduceSub]
theorem encB_cnd : (Fields.mk (encB op kind cnd tgt rcv g)).cnd = cnd := by
  simp (disch := omega) only [Fields.cnd, encB, extract_high, extract_low, extract_all, Nat.reduceSub]
theorem encB_tgt : (Fields.mk (encB op kind cnd tgt rcv g)).tgt = tgt := by
  simp (disch := omega) only [Fields.tgt, encB, extract_high, extract_low, extract_all, Nat.reduceSub]
theorem encB_rcv : (Fields.mk (encB op kind cnd tgt rcv g)).rcv = rcv := by
  simp (disch := omega) only [Fields.rcv, encB, extract_high, extract_low, extract_all, Nat.reduceSub]
theorem encB_guard : (Fields.mk (encB op kind cnd tgt rcv g)).guard = g := by
  simp (disch := omega) only [Fields.guard, encB, extract_low, extract_all]
end

end Sys2Proof
end

