-- ==== Sys2Proof/Laws/State.lean ====
section
/-!
SUPPORT. What each update of the state and of a pack leaves as it was: one lemma for each field and update.
-/
namespace Sys2Proof.Machine

/-! Packs, slots, launches, blocks, partitions -/
@[simp] theorem modPack_clk (s : State) (p : Nat) (f : Pack → Pack) : (s.modPack p f).clk = s.clk := rfl
@[simp] theorem modPack_blocks (s : State) (p : Nat) (f : Pack → Pack) : (s.modPack p f).blocks = s.blocks := rfl
@[simp] theorem modPack_launches (s : State) (p : Nat) (f : Pack → Pack) : (s.modPack p f).launches = s.launches := rfl
@[simp] theorem modPack_ops (s : State) (p : Nat) (f : Pack → Pack) : (s.modPack p f).ops = s.ops := rfl
@[simp] theorem modPack_mem (s : State) (p : Nat) (f : Pack → Pack) : (s.modPack p f).mem = s.mem := rfl
@[simp] theorem modPack_wbuf (s : State) (p : Nat) (f : Pack → Pack) : (s.modPack p f).wbuf = s.wbuf := rfl
@[simp] theorem modPack_wpoison (s : State) (p : Nat) (f : Pack → Pack) : (s.modPack p f).wpoison = s.wpoison := rfl
@[simp] theorem modPack_arrays (s : State) (p : Nat) (f : Pack → Pack) : (s.modPack p f).arrays = s.arrays := rfl
@[simp] theorem modPack_tlbs (s : State) (p : Nat) (f : Pack → Pack) : (s.modPack p f).tlbs = s.tlbs := rfl
@[simp] theorem modPack_merges (s : State) (p : Nat) (f : Pack → Pack) : (s.modPack p f).merges = s.merges := rfl
@[simp] theorem modPack_groups (s : State) (p : Nat) (f : Pack → Pack) : (s.modPack p f).groups = s.groups := rfl
@[simp] theorem modPack_invals (s : State) (p : Nat) (f : Pack → Pack) : (s.modPack p f).invals = s.invals := rfl
@[simp] theorem modPack_mshr (s : State) (p : Nat) (f : Pack → Pack) : (s.modPack p f).mshr = s.mshr := rfl
@[simp] theorem modPack_seqs (s : State) (p : Nat) (f : Pack → Pack) : (s.modPack p f).seqs = s.seqs := rfl
@[simp] theorem modPack_queues (s : State) (p : Nat) (f : Pack → Pack) : (s.modPack p f).queues = s.queues := rfl
@[simp] theorem modPack_rings (s : State) (p : Nat) (f : Pack → Pack) : (s.modPack p f).rings = s.rings := rfl
@[simp] theorem modPack_records (s : State) (p : Nat) (f : Pack → Pack) : (s.modPack p f).records = s.records := rfl
@[simp] theorem modPack_parts (s : State) (p : Nat) (f : Pack → Pack) : (s.modPack p f).parts = s.parts := rfl
@[simp] theorem modPack_shadow (s : State) (p : Nat) (f : Pack → Pack) : (s.modPack p f).shadow = s.shadow := rfl
@[simp] theorem modPack_splits (s : State) (p : Nat) (f : Pack → Pack) : (s.modPack p f).splits = s.splits := rfl
@[simp] theorem modPack_replays (s : State) (p : Nat) (f : Pack → Pack) : (s.modPack p f).replays = s.replays := rfl
@[simp] theorem modPack_dev (s : State) (p : Nat) (f : Pack → Pack) : (s.modPack p f).dev = s.dev := rfl
@[simp] theorem modPack_sent (s : State) (p : Nat) (f : Pack → Pack) : (s.modPack p f).sent = s.sent := rfl
@[simp] theorem modPack_lastQueue (s : State) (p : Nat) (f : Pack → Pack) : (s.modPack p f).lastQueue = s.lastQueue := rfl
@[simp] theorem modPack_nextOp (s : State) (p : Nat) (f : Pack → Pack) : (s.modPack p f).nextOp = s.nextOp := rfl
@[simp] theorem modPack_fresh (s : State) (p : Nat) (f : Pack → Pack) : (s.modPack p f).fresh = s.fresh := rfl
@[simp] theorem modPack_agenda (s : State) (p : Nat) (f : Pack → Pack) : (s.modPack p f).agenda = s.agenda := rfl
@[simp] theorem modPack_barActs (s : State) (p : Nat) (f : Pack → Pack) : (s.modPack p f).barActs = s.barActs := rfl
@[simp] theorem modPack_focus (s : State) (p : Nat) (f : Pack → Pack) : (s.modPack p f).focus = s.focus := rfl

/-! A slot -/
@[simp] theorem modSlot_clk (s : State) (p k : Nat) (f : Slot → Slot) : (s.modSlot p k f).clk = s.clk := rfl
@[simp] theorem modSlot_blocks (s : State) (p k : Nat) (f : Slot → Slot) : (s.modSlot p k f).blocks = s.blocks := rfl
@[simp] theorem modSlot_launches (s : State) (p k : Nat) (f : Slot → Slot) : (s.modSlot p k f).launches = s.launches := rfl
@[simp] theorem modSlot_ops (s : State) (p k : Nat) (f : Slot → Slot) : (s.modSlot p k f).ops = s.ops := rfl
@[simp] theorem modSlot_mem (s : State) (p k : Nat) (f : Slot → Slot) : (s.modSlot p k f).mem = s.mem := rfl
@[simp] theorem modSlot_wbuf (s : State) (p k : Nat) (f : Slot → Slot) : (s.modSlot p k f).wbuf = s.wbuf := rfl
@[simp] theorem modSlot_wpoison (s : State) (p k : Nat) (f : Slot → Slot) : (s.modSlot p k f).wpoison = s.wpoison := rfl
@[simp] theorem modSlot_arrays (s : State) (p k : Nat) (f : Slot → Slot) : (s.modSlot p k f).arrays = s.arrays := rfl
@[simp] theorem modSlot_tlbs (s : State) (p k : Nat) (f : Slot → Slot) : (s.modSlot p k f).tlbs = s.tlbs := rfl
@[simp] theorem modSlot_merges (s : State) (p k : Nat) (f : Slot → Slot) : (s.modSlot p k f).merges = s.merges := rfl
@[simp] theorem modSlot_groups (s : State) (p k : Nat) (f : Slot → Slot) : (s.modSlot p k f).groups = s.groups := rfl
@[simp] theorem modSlot_invals (s : State) (p k : Nat) (f : Slot → Slot) : (s.modSlot p k f).invals = s.invals := rfl
@[simp] theorem modSlot_mshr (s : State) (p k : Nat) (f : Slot → Slot) : (s.modSlot p k f).mshr = s.mshr := rfl
@[simp] theorem modSlot_seqs (s : State) (p k : Nat) (f : Slot → Slot) : (s.modSlot p k f).seqs = s.seqs := rfl
@[simp] theorem modSlot_queues (s : State) (p k : Nat) (f : Slot → Slot) : (s.modSlot p k f).queues = s.queues := rfl
@[simp] theorem modSlot_rings (s : State) (p k : Nat) (f : Slot → Slot) : (s.modSlot p k f).rings = s.rings := rfl
@[simp] theorem modSlot_records (s : State) (p k : Nat) (f : Slot → Slot) : (s.modSlot p k f).records = s.records := rfl
@[simp] theorem modSlot_parts (s : State) (p k : Nat) (f : Slot → Slot) : (s.modSlot p k f).parts = s.parts := rfl
@[simp] theorem modSlot_shadow (s : State) (p k : Nat) (f : Slot → Slot) : (s.modSlot p k f).shadow = s.shadow := rfl
@[simp] theorem modSlot_splits (s : State) (p k : Nat) (f : Slot → Slot) : (s.modSlot p k f).splits = s.splits := rfl
@[simp] theorem modSlot_replays (s : State) (p k : Nat) (f : Slot → Slot) : (s.modSlot p k f).replays = s.replays := rfl
@[simp] theorem modSlot_dev (s : State) (p k : Nat) (f : Slot → Slot) : (s.modSlot p k f).dev = s.dev := rfl
@[simp] theorem modSlot_sent (s : State) (p k : Nat) (f : Slot → Slot) : (s.modSlot p k f).sent = s.sent := rfl
@[simp] theorem modSlot_lastQueue (s : State) (p k : Nat) (f : Slot → Slot) : (s.modSlot p k f).lastQueue = s.lastQueue := rfl
@[simp] theorem modSlot_nextOp (s : State) (p k : Nat) (f : Slot → Slot) : (s.modSlot p k f).nextOp = s.nextOp := rfl
@[simp] theorem modSlot_fresh (s : State) (p k : Nat) (f : Slot → Slot) : (s.modSlot p k f).fresh = s.fresh := rfl
@[simp] theorem modSlot_agenda (s : State) (p k : Nat) (f : Slot → Slot) : (s.modSlot p k f).agenda = s.agenda := rfl
@[simp] theorem modSlot_barActs (s : State) (p k : Nat) (f : Slot → Slot) : (s.modSlot p k f).barActs = s.barActs := rfl
@[simp] theorem modSlot_focus (s : State) (p k : Nat) (f : Slot → Slot) : (s.modSlot p k f).focus = s.focus := rfl

/-! A launch -/
@[simp] theorem modLaunch_clk (s : State) (l : Nat) (f : Launch → Launch) : (s.modLaunch l f).clk = s.clk := rfl
@[simp] theorem modLaunch_packs (s : State) (l : Nat) (f : Launch → Launch) : (s.modLaunch l f).packs = s.packs := rfl
@[simp] theorem modLaunch_blocks (s : State) (l : Nat) (f : Launch → Launch) : (s.modLaunch l f).blocks = s.blocks := rfl
@[simp] theorem modLaunch_ops (s : State) (l : Nat) (f : Launch → Launch) : (s.modLaunch l f).ops = s.ops := rfl
@[simp] theorem modLaunch_mem (s : State) (l : Nat) (f : Launch → Launch) : (s.modLaunch l f).mem = s.mem := rfl
@[simp] theorem modLaunch_wbuf (s : State) (l : Nat) (f : Launch → Launch) : (s.modLaunch l f).wbuf = s.wbuf := rfl
@[simp] theorem modLaunch_wpoison (s : State) (l : Nat) (f : Launch → Launch) : (s.modLaunch l f).wpoison = s.wpoison := rfl
@[simp] theorem modLaunch_arrays (s : State) (l : Nat) (f : Launch → Launch) : (s.modLaunch l f).arrays = s.arrays := rfl
@[simp] theorem modLaunch_tlbs (s : State) (l : Nat) (f : Launch → Launch) : (s.modLaunch l f).tlbs = s.tlbs := rfl
@[simp] theorem modLaunch_merges (s : State) (l : Nat) (f : Launch → Launch) : (s.modLaunch l f).merges = s.merges := rfl
@[simp] theorem modLaunch_groups (s : State) (l : Nat) (f : Launch → Launch) : (s.modLaunch l f).groups = s.groups := rfl
@[simp] theorem modLaunch_invals (s : State) (l : Nat) (f : Launch → Launch) : (s.modLaunch l f).invals = s.invals := rfl
@[simp] theorem modLaunch_mshr (s : State) (l : Nat) (f : Launch → Launch) : (s.modLaunch l f).mshr = s.mshr := rfl
@[simp] theorem modLaunch_seqs (s : State) (l : Nat) (f : Launch → Launch) : (s.modLaunch l f).seqs = s.seqs := rfl
@[simp] theorem modLaunch_queues (s : State) (l : Nat) (f : Launch → Launch) : (s.modLaunch l f).queues = s.queues := rfl
@[simp] theorem modLaunch_rings (s : State) (l : Nat) (f : Launch → Launch) : (s.modLaunch l f).rings = s.rings := rfl
@[simp] theorem modLaunch_records (s : State) (l : Nat) (f : Launch → Launch) : (s.modLaunch l f).records = s.records := rfl
@[simp] theorem modLaunch_parts (s : State) (l : Nat) (f : Launch → Launch) : (s.modLaunch l f).parts = s.parts := rfl
@[simp] theorem modLaunch_shadow (s : State) (l : Nat) (f : Launch → Launch) : (s.modLaunch l f).shadow = s.shadow := rfl
@[simp] theorem modLaunch_splits (s : State) (l : Nat) (f : Launch → Launch) : (s.modLaunch l f).splits = s.splits := rfl
@[simp] theorem modLaunch_replays (s : State) (l : Nat) (f : Launch → Launch) : (s.modLaunch l f).replays = s.replays := rfl
@[simp] theorem modLaunch_dev (s : State) (l : Nat) (f : Launch → Launch) : (s.modLaunch l f).dev = s.dev := rfl
@[simp] theorem modLaunch_sent (s : State) (l : Nat) (f : Launch → Launch) : (s.modLaunch l f).sent = s.sent := rfl
@[simp] theorem modLaunch_lastQueue (s : State) (l : Nat) (f : Launch → Launch) : (s.modLaunch l f).lastQueue = s.lastQueue := rfl
@[simp] theorem modLaunch_nextOp (s : State) (l : Nat) (f : Launch → Launch) : (s.modLaunch l f).nextOp = s.nextOp := rfl
@[simp] theorem modLaunch_fresh (s : State) (l : Nat) (f : Launch → Launch) : (s.modLaunch l f).fresh = s.fresh := rfl
@[simp] theorem modLaunch_agenda (s : State) (l : Nat) (f : Launch → Launch) : (s.modLaunch l f).agenda = s.agenda := rfl
@[simp] theorem modLaunch_barActs (s : State) (l : Nat) (f : Launch → Launch) : (s.modLaunch l f).barActs = s.barActs := rfl
@[simp] theorem modLaunch_focus (s : State) (l : Nat) (f : Launch → Launch) : (s.modLaunch l f).focus = s.focus := rfl

/-! A block -/
@[simp] theorem modBlock_clk (s : State) (b : Nat) (f : Block → Block) : (s.modBlock b f).clk = s.clk := rfl
@[simp] theorem modBlock_packs (s : State) (b : Nat) (f : Block → Block) : (s.modBlock b f).packs = s.packs := rfl
@[simp] theorem modBlock_launches (s : State) (b : Nat) (f : Block → Block) : (s.modBlock b f).launches = s.launches := rfl
@[simp] theorem modBlock_ops (s : State) (b : Nat) (f : Block → Block) : (s.modBlock b f).ops = s.ops := rfl
@[simp] theorem modBlock_mem (s : State) (b : Nat) (f : Block → Block) : (s.modBlock b f).mem = s.mem := rfl
@[simp] theorem modBlock_wbuf (s : State) (b : Nat) (f : Block → Block) : (s.modBlock b f).wbuf = s.wbuf := rfl
@[simp] theorem modBlock_wpoison (s : State) (b : Nat) (f : Block → Block) : (s.modBlock b f).wpoison = s.wpoison := rfl
@[simp] theorem modBlock_arrays (s : State) (b : Nat) (f : Block → Block) : (s.modBlock b f).arrays = s.arrays := rfl
@[simp] theorem modBlock_tlbs (s : State) (b : Nat) (f : Block → Block) : (s.modBlock b f).tlbs = s.tlbs := rfl
@[simp] theorem modBlock_merges (s : State) (b : Nat) (f : Block → Block) : (s.modBlock b f).merges = s.merges := rfl
@[simp] theorem modBlock_groups (s : State) (b : Nat) (f : Block → Block) : (s.modBlock b f).groups = s.groups := rfl
@[simp] theorem modBlock_invals (s : State) (b : Nat) (f : Block → Block) : (s.modBlock b f).invals = s.invals := rfl
@[simp] theorem modBlock_mshr (s : State) (b : Nat) (f : Block → Block) : (s.modBlock b f).mshr = s.mshr := rfl
@[simp] theorem modBlock_seqs (s : State) (b : Nat) (f : Block → Block) : (s.modBlock b f).seqs = s.seqs := rfl
@[simp] theorem modBlock_queues (s : State) (b : Nat) (f : Block → Block) : (s.modBlock b f).queues = s.queues := rfl
@[simp] theorem modBlock_rings (s : State) (b : Nat) (f : Block → Block) : (s.modBlock b f).rings = s.rings := rfl
@[simp] theorem modBlock_records (s : State) (b : Nat) (f : Block → Block) : (s.modBlock b f).records = s.records := rfl
@[simp] theorem modBlock_parts (s : State) (b : Nat) (f : Block → Block) : (s.modBlock b f).parts = s.parts := rfl
@[simp] theorem modBlock_shadow (s : State) (b : Nat) (f : Block → Block) : (s.modBlock b f).shadow = s.shadow := rfl
@[simp] theorem modBlock_splits (s : State) (b : Nat) (f : Block → Block) : (s.modBlock b f).splits = s.splits := rfl
@[simp] theorem modBlock_replays (s : State) (b : Nat) (f : Block → Block) : (s.modBlock b f).replays = s.replays := rfl
@[simp] theorem modBlock_dev (s : State) (b : Nat) (f : Block → Block) : (s.modBlock b f).dev = s.dev := rfl
@[simp] theorem modBlock_sent (s : State) (b : Nat) (f : Block → Block) : (s.modBlock b f).sent = s.sent := rfl
@[simp] theorem modBlock_lastQueue (s : State) (b : Nat) (f : Block → Block) : (s.modBlock b f).lastQueue = s.lastQueue := rfl
@[simp] theorem modBlock_nextOp (s : State) (b : Nat) (f : Block → Block) : (s.modBlock b f).nextOp = s.nextOp := rfl
@[simp] theorem modBlock_fresh (s : State) (b : Nat) (f : Block → Block) : (s.modBlock b f).fresh = s.fresh := rfl
@[simp] theorem modBlock_agenda (s : State) (b : Nat) (f : Block → Block) : (s.modBlock b f).agenda = s.agenda := rfl
@[simp] theorem modBlock_barActs (s : State) (b : Nat) (f : Block → Block) : (s.modBlock b f).barActs = s.barActs := rfl
@[simp] theorem modBlock_focus (s : State) (b : Nat) (f : Block → Block) : (s.modBlock b f).focus = s.focus := rfl

/-! A partition -/
@[simp] theorem modPart_clk (s : State) (q : Nat) (f : Part → Part) : (s.modPart q f).clk = s.clk := rfl
@[simp] theorem modPart_packs (s : State) (q : Nat) (f : Part → Part) : (s.modPart q f).packs = s.packs := rfl
@[simp] theorem modPart_blocks (s : State) (q : Nat) (f : Part → Part) : (s.modPart q f).blocks = s.blocks := rfl
@[simp] theorem modPart_launches (s : State) (q : Nat) (f : Part → Part) : (s.modPart q f).launches = s.launches := rfl
@[simp] theorem modPart_ops (s : State) (q : Nat) (f : Part → Part) : (s.modPart q f).ops = s.ops := rfl
@[simp] theorem modPart_mem (s : State) (q : Nat) (f : Part → Part) : (s.modPart q f).mem = s.mem := rfl
@[simp] theorem modPart_wbuf (s : State) (q : Nat) (f : Part → Part) : (s.modPart q f).wbuf = s.wbuf := rfl
@[simp] theorem modPart_wpoison (s : State) (q : Nat) (f : Part → Part) : (s.modPart q f).wpoison = s.wpoison := rfl
@[simp] theorem modPart_arrays (s : State) (q : Nat) (f : Part → Part) : (s.modPart q f).arrays = s.arrays := rfl
@[simp] theorem modPart_tlbs (s : State) (q : Nat) (f : Part → Part) : (s.modPart q f).tlbs = s.tlbs := rfl
@[simp] theorem modPart_merges (s : State) (q : Nat) (f : Part → Part) : (s.modPart q f).merges = s.merges := rfl
@[simp] theorem modPart_groups (s : State) (q : Nat) (f : Part → Part) : (s.modPart q f).groups = s.groups := rfl
@[simp] theorem modPart_invals (s : State) (q : Nat) (f : Part → Part) : (s.modPart q f).invals = s.invals := rfl
@[simp] theorem modPart_mshr (s : State) (q : Nat) (f : Part → Part) : (s.modPart q f).mshr = s.mshr := rfl
@[simp] theorem modPart_seqs (s : State) (q : Nat) (f : Part → Part) : (s.modPart q f).seqs = s.seqs := rfl
@[simp] theorem modPart_queues (s : State) (q : Nat) (f : Part → Part) : (s.modPart q f).queues = s.queues := rfl
@[simp] theorem modPart_rings (s : State) (q : Nat) (f : Part → Part) : (s.modPart q f).rings = s.rings := rfl
@[simp] theorem modPart_records (s : State) (q : Nat) (f : Part → Part) : (s.modPart q f).records = s.records := rfl
@[simp] theorem modPart_shadow (s : State) (q : Nat) (f : Part → Part) : (s.modPart q f).shadow = s.shadow := rfl
@[simp] theorem modPart_splits (s : State) (q : Nat) (f : Part → Part) : (s.modPart q f).splits = s.splits := rfl
@[simp] theorem modPart_replays (s : State) (q : Nat) (f : Part → Part) : (s.modPart q f).replays = s.replays := rfl
@[simp] theorem modPart_dev (s : State) (q : Nat) (f : Part → Part) : (s.modPart q f).dev = s.dev := rfl
@[simp] theorem modPart_sent (s : State) (q : Nat) (f : Part → Part) : (s.modPart q f).sent = s.sent := rfl
@[simp] theorem modPart_lastQueue (s : State) (q : Nat) (f : Part → Part) : (s.modPart q f).lastQueue = s.lastQueue := rfl
@[simp] theorem modPart_nextOp (s : State) (q : Nat) (f : Part → Part) : (s.modPart q f).nextOp = s.nextOp := rfl
@[simp] theorem modPart_fresh (s : State) (q : Nat) (f : Part → Part) : (s.modPart q f).fresh = s.fresh := rfl
@[simp] theorem modPart_agenda (s : State) (q : Nat) (f : Part → Part) : (s.modPart q f).agenda = s.agenda := rfl
@[simp] theorem modPart_barActs (s : State) (q : Nat) (f : Part → Part) : (s.modPart q f).barActs = s.barActs := rfl
@[simp] theorem modPart_focus (s : State) (q : Nat) (f : Part → Part) : (s.modPart q f).focus = s.focus := rfl

/-! A byte of memory -/
@[simp] theorem ramWrite_clk (s : State) (a : Nat) (b : BitVec 8) : (ramWrite s a b).clk = s.clk := rfl
@[simp] theorem ramWrite_packs (s : State) (a : Nat) (b : BitVec 8) : (ramWrite s a b).packs = s.packs := rfl
@[simp] theorem ramWrite_blocks (s : State) (a : Nat) (b : BitVec 8) : (ramWrite s a b).blocks = s.blocks := rfl
@[simp] theorem ramWrite_launches (s : State) (a : Nat) (b : BitVec 8) : (ramWrite s a b).launches = s.launches := rfl
@[simp] theorem ramWrite_ops (s : State) (a : Nat) (b : BitVec 8) : (ramWrite s a b).ops = s.ops := rfl
@[simp] theorem ramWrite_wbuf (s : State) (a : Nat) (b : BitVec 8) : (ramWrite s a b).wbuf = s.wbuf := rfl
@[simp] theorem ramWrite_arrays (s : State) (a : Nat) (b : BitVec 8) : (ramWrite s a b).arrays = s.arrays := rfl
@[simp] theorem ramWrite_tlbs (s : State) (a : Nat) (b : BitVec 8) : (ramWrite s a b).tlbs = s.tlbs := rfl
@[simp] theorem ramWrite_merges (s : State) (a : Nat) (b : BitVec 8) : (ramWrite s a b).merges = s.merges := rfl
@[simp] theorem ramWrite_groups (s : State) (a : Nat) (b : BitVec 8) : (ramWrite s a b).groups = s.groups := rfl
@[simp] theorem ramWrite_invals (s : State) (a : Nat) (b : BitVec 8) : (ramWrite s a b).invals = s.invals := rfl
@[simp] theorem ramWrite_mshr (s : State) (a : Nat) (b : BitVec 8) : (ramWrite s a b).mshr = s.mshr := rfl
@[simp] theorem ramWrite_seqs (s : State) (a : Nat) (b : BitVec 8) : (ramWrite s a b).seqs = s.seqs := rfl
@[simp] theorem ramWrite_queues (s : State) (a : Nat) (b : BitVec 8) : (ramWrite s a b).queues = s.queues := rfl
@[simp] theorem ramWrite_rings (s : State) (a : Nat) (b : BitVec 8) : (ramWrite s a b).rings = s.rings := rfl
@[simp] theorem ramWrite_records (s : State) (a : Nat) (b : BitVec 8) : (ramWrite s a b).records = s.records := rfl
@[simp] theorem ramWrite_parts (s : State) (a : Nat) (b : BitVec 8) : (ramWrite s a b).parts = s.parts := rfl
@[simp] theorem ramWrite_shadow (s : State) (a : Nat) (b : BitVec 8) : (ramWrite s a b).shadow = s.shadow := rfl
@[simp] theorem ramWrite_replays (s : State) (a : Nat) (b : BitVec 8) : (ramWrite s a b).replays = s.replays := rfl
@[simp] theorem ramWrite_dev (s : State) (a : Nat) (b : BitVec 8) : (ramWrite s a b).dev = s.dev := rfl
@[simp] theorem ramWrite_sent (s : State) (a : Nat) (b : BitVec 8) : (ramWrite s a b).sent = s.sent := rfl
@[simp] theorem ramWrite_lastQueue (s : State) (a : Nat) (b : BitVec 8) : (ramWrite s a b).lastQueue = s.lastQueue := rfl
@[simp] theorem ramWrite_nextOp (s : State) (a : Nat) (b : BitVec 8) : (ramWrite s a b).nextOp = s.nextOp := rfl
@[simp] theorem ramWrite_fresh (s : State) (a : Nat) (b : BitVec 8) : (ramWrite s a b).fresh = s.fresh := rfl
@[simp] theorem ramWrite_agenda (s : State) (a : Nat) (b : BitVec 8) : (ramWrite s a b).agenda = s.agenda := rfl
@[simp] theorem ramWrite_barActs (s : State) (a : Nat) (b : BitVec 8) : (ramWrite s a b).barActs = s.barActs := rfl
@[simp] theorem ramWrite_focus (s : State) (a : Nat) (b : BitVec 8) : (ramWrite s a b).focus = s.focus := rfl

/-! A vector lane -/
@[simp] theorem vset_launch (x : Pack) (r l : Nat) (w : W32) : (x.vset r l w).launch = x.launch := rfl
@[simp] theorem vset_block (x : Pack) (r l : Nat) (w : W32) : (x.vset r l w).block = x.block := rfl
@[simp] theorem vset_pk (x : Pack) (r l : Nat) (w : W32) : (x.vset r l w).pk = x.pk := rfl
@[simp] theorem vset_core (x : Pack) (r l : Nat) (w : W32) : (x.vset r l w).core = x.core := rfl
@[simp] theorem vset_quarter (x : Pack) (r l : Nat) (w : W32) : (x.vset r l w).quarter = x.quarter := rfl
@[simp] theorem vset_retired (x : Pack) (r l : Nat) (w : W32) : (x.vset r l w).retired = x.retired := rfl
@[simp] theorem vset_present (x : Pack) (r l : Nat) (w : W32) : (x.vset r l w).present = x.present := rfl
@[simp] theorem vset_gang (x : Pack) (r l : Nat) (w : W32) : (x.vset r l w).gang = x.gang := rfl
@[simp] theorem vset_lead (x : Pack) (r l : Nat) (w : W32) : (x.vset r l w).lead = x.lead := rfl
@[simp] theorem vset_heel (x : Pack) (r l : Nat) (w : W32) : (x.vset r l w).heel = x.heel := rfl
@[simp] theorem vset_kennel (x : Pack) (r l : Nat) (w : W32) : (x.vset r l w).kennel = x.kennel := rfl
@[simp] theorem vset_tags (x : Pack) (r l : Nat) (w : W32) : (x.vset r l w).tags = x.tags := rfl
@[simp] theorem vset_s (x : Pack) (r l : Nat) (w : W32) : (x.vset r l w).s = x.s := rfl
@[simp] theorem vset_p (x : Pack) (r l : Nat) (w : W32) : (x.vset r l w).p = x.p := rfl
@[simp] theorem vset_q (x : Pack) (r l : Nat) (w : W32) : (x.vset r l w).q = x.q := rfl
@[simp] theorem vset_gs (x : Pack) (r l : Nat) (w : W32) : (x.vset r l w).gs = x.gs := rfl
@[simp] theorem vset_fholds (x : Pack) (r l : Nat) (w : W32) : (x.vset r l w).fholds = x.fholds := rfl
@[simp] theorem vset_k (x : Pack) (r l : Nat) (w : W32) : (x.vset r l w).k = x.k := rfl
@[simp] theorem vset_stamp (x : Pack) (r l : Nat) (w : W32) : (x.vset r l w).stamp = x.stamp := rfl
@[simp] theorem vset_last (x : Pack) (r l : Nat) (w : W32) : (x.vset r l w).last = x.last := rfl
@[simp] theorem vset_forced (x : Pack) (r l : Nat) (w : W32) : (x.vset r l w).forced = x.forced := rfl
@[simp] theorem vset_yielded (x : Pack) (r l : Nat) (w : W32) : (x.vset r l w).yielded = x.yielded := rfl
@[simp] theorem vset_uncounted (x : Pack) (r l : Nat) (w : W32) : (x.vset r l w).uncounted = x.uncounted := rfl
@[simp] theorem vset_lclk (x : Pack) (r l : Nat) (w : W32) : (x.vset r l w).lclk = x.lclk := rfl
@[simp] theorem vset_beta (x : Pack) (r l : Nat) (w : W32) : (x.vset r l w).beta = x.beta := rfl
@[simp] theorem vset_seed (x : Pack) (r l : Nat) (w : W32) : (x.vset r l w).seed = x.seed := rfl
@[simp] theorem vset_trapv (x : Pack) (r l : Nat) (w : W32) : (x.vset r l w).trapv = x.trapv := rfl
@[simp] theorem vset_trapc (x : Pack) (r l : Nat) (w : W32) : (x.vset r l w).trapc = x.trapc := rfl
@[simp] theorem vset_trapa (x : Pack) (r l : Nat) (w : W32) : (x.vset r l w).trapa = x.trapa := rfl
@[simp] theorem vset_xbnd (x : Pack) (r l : Nat) (w : W32) : (x.vset r l w).xbnd = x.xbnd := rfl
@[simp] theorem vset_sect (x : Pack) (r l : Nat) (w : W32) : (x.vset r l w).sect = x.sect := rfl
@[simp] theorem vset_region (x : Pack) (r l : Nat) (w : W32) : (x.vset r l w).region = x.region := rfl
@[simp] theorem vset_refs (x : Pack) (r l : Nat) (w : W32) : (x.vset r l w).refs = x.refs := rfl
@[simp] theorem vset_pcause (x : Pack) (r l : Nat) (w : W32) : (x.vset r l w).pcause = x.pcause := rfl
@[simp] theorem vset_pinfo (x : Pack) (r l : Nat) (w : W32) : (x.vset r l w).pinfo = x.pinfo := rfl
@[simp] theorem vset_pscr (x : Pack) (r l : Nat) (w : W32) : (x.vset r l w).pscr = x.pscr := rfl
@[simp] theorem vset_rewritten (x : Pack) (r l : Nat) (w : W32) : (x.vset r l w).rewritten = x.rewritten := rfl
@[simp] theorem vset_pending (x : Pack) (r l : Nat) (w : W32) : (x.vset r l w).pending = x.pending := rfl
@[simp] theorem vset_image (x : Pack) (r l : Nat) (w : W32) : (x.vset r l w).image = x.image := rfl
@[simp] theorem vset_stopped (x : Pack) (r l : Nat) (w : W32) : (x.vset r l w).stopped = x.stopped := rfl

/-! A scalar -/
@[simp] theorem sset_launch (x : Pack) (r : Nat) (w : W64) : (x.sset r w).launch = x.launch := rfl
@[simp] theorem sset_block (x : Pack) (r : Nat) (w : W64) : (x.sset r w).block = x.block := rfl
@[simp] theorem sset_pk (x : Pack) (r : Nat) (w : W64) : (x.sset r w).pk = x.pk := rfl
@[simp] theorem sset_core (x : Pack) (r : Nat) (w : W64) : (x.sset r w).core = x.core := rfl
@[simp] theorem sset_quarter (x : Pack) (r : Nat) (w : W64) : (x.sset r w).quarter = x.quarter := rfl
@[simp] theorem sset_retired (x : Pack) (r : Nat) (w : W64) : (x.sset r w).retired = x.retired := rfl
@[simp] theorem sset_present (x : Pack) (r : Nat) (w : W64) : (x.sset r w).present = x.present := rfl
@[simp] theorem sset_gang (x : Pack) (r : Nat) (w : W64) : (x.sset r w).gang = x.gang := rfl
@[simp] theorem sset_lead (x : Pack) (r : Nat) (w : W64) : (x.sset r w).lead = x.lead := rfl
@[simp] theorem sset_heel (x : Pack) (r : Nat) (w : W64) : (x.sset r w).heel = x.heel := rfl
@[simp] theorem sset_kennel (x : Pack) (r : Nat) (w : W64) : (x.sset r w).kennel = x.kennel := rfl
@[simp] theorem sset_v (x : Pack) (r : Nat) (w : W64) : (x.sset r w).v = x.v := rfl
@[simp] theorem sset_tags (x : Pack) (r : Nat) (w : W64) : (x.sset r w).tags = x.tags := rfl
@[simp] theorem sset_p (x : Pack) (r : Nat) (w : W64) : (x.sset r w).p = x.p := rfl
@[simp] theorem sset_q (x : Pack) (r : Nat) (w : W64) : (x.sset r w).q = x.q := rfl
@[simp] theorem sset_gs (x : Pack) (r : Nat) (w : W64) : (x.sset r w).gs = x.gs := rfl
@[simp] theorem sset_fholds (x : Pack) (r : Nat) (w : W64) : (x.sset r w).fholds = x.fholds := rfl
@[simp] theorem sset_k (x : Pack) (r : Nat) (w : W64) : (x.sset r w).k = x.k := rfl
@[simp] theorem sset_stamp (x : Pack) (r : Nat) (w : W64) : (x.sset r w).stamp = x.stamp := rfl
@[simp] theorem sset_last (x : Pack) (r : Nat) (w : W64) : (x.sset r w).last = x.last := rfl
@[simp] theorem sset_forced (x : Pack) (r : Nat) (w : W64) : (x.sset r w).forced = x.forced := rfl
@[simp] theorem sset_yielded (x : Pack) (r : Nat) (w : W64) : (x.sset r w).yielded = x.yielded := rfl
@[simp] theorem sset_uncounted (x : Pack) (r : Nat) (w : W64) : (x.sset r w).uncounted = x.uncounted := rfl
@[simp] theorem sset_lclk (x : Pack) (r : Nat) (w : W64) : (x.sset r w).lclk = x.lclk := rfl
@[simp] theorem sset_beta (x : Pack) (r : Nat) (w : W64) : (x.sset r w).beta = x.beta := rfl
@[simp] theorem sset_seed (x : Pack) (r : Nat) (w : W64) : (x.sset r w).seed = x.seed := rfl
@[simp] theorem sset_trapv (x : Pack) (r : Nat) (w : W64) : (x.sset r w).trapv = x.trapv := rfl
@[simp] theorem sset_trapc (x : Pack) (r : Nat) (w : W64) : (x.sset r w).trapc = x.trapc := rfl
@[simp] theorem sset_trapa (x : Pack) (r : Nat) (w : W64) : (x.sset r w).trapa = x.trapa := rfl
@[simp] theorem sset_xbnd (x : Pack) (r : Nat) (w : W64) : (x.sset r w).xbnd = x.xbnd := rfl
@[simp] theorem sset_sect (x : Pack) (r : Nat) (w : W64) : (x.sset r w).sect = x.sect := rfl
@[simp] theorem sset_region (x : Pack) (r : Nat) (w : W64) : (x.sset r w).region = x.region := rfl
@[simp] theorem sset_refs (x : Pack) (r : Nat) (w : W64) : (x.sset r w).refs = x.refs := rfl
@[simp] theorem sset_pcause (x : Pack) (r : Nat) (w : W64) : (x.sset r w).pcause = x.pcause := rfl
@[simp] theorem sset_pinfo (x : Pack) (r : Nat) (w : W64) : (x.sset r w).pinfo = x.pinfo := rfl
@[simp] theorem sset_pscr (x : Pack) (r : Nat) (w : W64) : (x.sset r w).pscr = x.pscr := rfl
@[simp] theorem sset_rewritten (x : Pack) (r : Nat) (w : W64) : (x.sset r w).rewritten = x.rewritten := rfl
@[simp] theorem sset_pending (x : Pack) (r : Nat) (w : W64) : (x.sset r w).pending = x.pending := rfl
@[simp] theorem sset_image (x : Pack) (r : Nat) (w : W64) : (x.sset r w).image = x.image := rfl
@[simp] theorem sset_stopped (x : Pack) (r : Nat) (w : W64) : (x.sset r w).stopped = x.stopped := rfl

/-! A predicate -/
@[simp] theorem pset_launch (x : Pack) (r : Nat) (m v : Lanes) : (x.pset r m v).launch = x.launch := rfl
@[simp] theorem pset_block (x : Pack) (r : Nat) (m v : Lanes) : (x.pset r m v).block = x.block := rfl
@[simp] theorem pset_pk (x : Pack) (r : Nat) (m v : Lanes) : (x.pset r m v).pk = x.pk := rfl
@[simp] theorem pset_core (x : Pack) (r : Nat) (m v : Lanes) : (x.pset r m v).core = x.core := rfl
@[simp] theorem pset_quarter (x : Pack) (r : Nat) (m v : Lanes) : (x.pset r m v).quarter = x.quarter := rfl
@[simp] theorem pset_retired (x : Pack) (r : Nat) (m v : Lanes) : (x.pset r m v).retired = x.retired := rfl
@[simp] theorem pset_present (x : Pack) (r : Nat) (m v : Lanes) : (x.pset r m v).present = x.present := rfl
@[simp] theorem pset_gang (x : Pack) (r : Nat) (m v : Lanes) : (x.pset r m v).gang = x.gang := rfl
@[simp] theorem pset_lead (x : Pack) (r : Nat) (m v : Lanes) : (x.pset r m v).lead = x.lead := rfl
@[simp] theorem pset_heel (x : Pack) (r : Nat) (m v : Lanes) : (x.pset r m v).heel = x.heel := rfl
@[simp] theorem pset_kennel (x : Pack) (r : Nat) (m v : Lanes) : (x.pset r m v).kennel = x.kennel := rfl
@[simp] theorem pset_v (x : Pack) (r : Nat) (m v : Lanes) : (x.pset r m v).v = x.v := rfl
@[simp] theorem pset_tags (x : Pack) (r : Nat) (m v : Lanes) : (x.pset r m v).tags = x.tags := rfl
@[simp] theorem pset_s (x : Pack) (r : Nat) (m v : Lanes) : (x.pset r m v).s = x.s := rfl
@[simp] theorem pset_q (x : Pack) (r : Nat) (m v : Lanes) : (x.pset r m v).q = x.q := rfl
@[simp] theorem pset_gs (x : Pack) (r : Nat) (m v : Lanes) : (x.pset r m v).gs = x.gs := rfl
@[simp] theorem pset_fholds (x : Pack) (r : Nat) (m v : Lanes) : (x.pset r m v).fholds = x.fholds := rfl
@[simp] theorem pset_k (x : Pack) (r : Nat) (m v : Lanes) : (x.pset r m v).k = x.k := rfl
@[simp] theorem pset_stamp (x : Pack) (r : Nat) (m v : Lanes) : (x.pset r m v).stamp = x.stamp := rfl
@[simp] theorem pset_last (x : Pack) (r : Nat) (m v : Lanes) : (x.pset r m v).last = x.last := rfl
@[simp] theorem pset_forced (x : Pack) (r : Nat) (m v : Lanes) : (x.pset r m v).forced = x.forced := rfl
@[simp] theorem pset_yielded (x : Pack) (r : Nat) (m v : Lanes) : (x.pset r m v).yielded = x.yielded := rfl
@[simp] theorem pset_uncounted (x : Pack) (r : Nat) (m v : Lanes) : (x.pset r m v).uncounted = x.uncounted := rfl
@[simp] theorem pset_lclk (x : Pack) (r : Nat) (m v : Lanes) : (x.pset r m v).lclk = x.lclk := rfl
@[simp] theorem pset_beta (x : Pack) (r : Nat) (m v : Lanes) : (x.pset r m v).beta = x.beta := rfl
@[simp] theorem pset_seed (x : Pack) (r : Nat) (m v : Lanes) : (x.pset r m v).seed = x.seed := rfl
@[simp] theorem pset_trapv (x : Pack) (r : Nat) (m v : Lanes) : (x.pset r m v).trapv = x.trapv := rfl
@[simp] theorem pset_trapc (x : Pack) (r : Nat) (m v : Lanes) : (x.pset r m v).trapc = x.trapc := rfl
@[simp] theorem pset_trapa (x : Pack) (r : Nat) (m v : Lanes) : (x.pset r m v).trapa = x.trapa := rfl
@[simp] theorem pset_xbnd (x : Pack) (r : Nat) (m v : Lanes) : (x.pset r m v).xbnd = x.xbnd := rfl
@[simp] theorem pset_sect (x : Pack) (r : Nat) (m v : Lanes) : (x.pset r m v).sect = x.sect := rfl
@[simp] theorem pset_region (x : Pack) (r : Nat) (m v : Lanes) : (x.pset r m v).region = x.region := rfl
@[simp] theorem pset_refs (x : Pack) (r : Nat) (m v : Lanes) : (x.pset r m v).refs = x.refs := rfl
@[simp] theorem pset_pcause (x : Pack) (r : Nat) (m v : Lanes) : (x.pset r m v).pcause = x.pcause := rfl
@[simp] theorem pset_pinfo (x : Pack) (r : Nat) (m v : Lanes) : (x.pset r m v).pinfo = x.pinfo := rfl
@[simp] theorem pset_pscr (x : Pack) (r : Nat) (m v : Lanes) : (x.pset r m v).pscr = x.pscr := rfl
@[simp] theorem pset_rewritten (x : Pack) (r : Nat) (m v : Lanes) : (x.pset r m v).rewritten = x.rewritten := rfl
@[simp] theorem pset_pending (x : Pack) (r : Nat) (m v : Lanes) : (x.pset r m v).pending = x.pending := rfl
@[simp] theorem pset_image (x : Pack) (r : Nat) (m v : Lanes) : (x.pset r m v).image = x.image := rfl
@[simp] theorem pset_stopped (x : Pack) (r : Nat) (m v : Lanes) : (x.pset r m v).stopped = x.stopped := rfl

/-! A Q lane -/
@[simp] theorem qset_launch (x : Pack) (r l : Nat) (w : BitVec 24) : (x.qset r l w).launch = x.launch := rfl
@[simp] theorem qset_block (x : Pack) (r l : Nat) (w : BitVec 24) : (x.qset r l w).block = x.block := rfl
@[simp] theorem qset_pk (x : Pack) (r l : Nat) (w : BitVec 24) : (x.qset r l w).pk = x.pk := rfl
@[simp] theorem qset_core (x : Pack) (r l : Nat) (w : BitVec 24) : (x.qset r l w).core = x.core := rfl
@[simp] theorem qset_quarter (x : Pack) (r l : Nat) (w : BitVec 24) : (x.qset r l w).quarter = x.quarter := rfl
@[simp] theorem qset_retired (x : Pack) (r l : Nat) (w : BitVec 24) : (x.qset r l w).retired = x.retired := rfl
@[simp] theorem qset_present (x : Pack) (r l : Nat) (w : BitVec 24) : (x.qset r l w).present = x.present := rfl
@[simp] theorem qset_gang (x : Pack) (r l : Nat) (w : BitVec 24) : (x.qset r l w).gang = x.gang := rfl
@[simp] theorem qset_lead (x : Pack) (r l : Nat) (w : BitVec 24) : (x.qset r l w).lead = x.lead := rfl
@[simp] theorem qset_heel (x : Pack) (r l : Nat) (w : BitVec 24) : (x.qset r l w).heel = x.heel := rfl
@[simp] theorem qset_kennel (x : Pack) (r l : Nat) (w : BitVec 24) : (x.qset r l w).kennel = x.kennel := rfl
@[simp] theorem qset_v (x : Pack) (r l : Nat) (w : BitVec 24) : (x.qset r l w).v = x.v := rfl
@[simp] theorem qset_tags (x : Pack) (r l : Nat) (w : BitVec 24) : (x.qset r l w).tags = x.tags := rfl
@[simp] theorem qset_s (x : Pack) (r l : Nat) (w : BitVec 24) : (x.qset r l w).s = x.s := rfl
@[simp] theorem qset_p (x : Pack) (r l : Nat) (w : BitVec 24) : (x.qset r l w).p = x.p := rfl
@[simp] theorem qset_gs (x : Pack) (r l : Nat) (w : BitVec 24) : (x.qset r l w).gs = x.gs := rfl
@[simp] theorem qset_fholds (x : Pack) (r l : Nat) (w : BitVec 24) : (x.qset r l w).fholds = x.fholds := rfl
@[simp] theorem qset_k (x : Pack) (r l : Nat) (w : BitVec 24) : (x.qset r l w).k = x.k := rfl
@[simp] theorem qset_stamp (x : Pack) (r l : Nat) (w : BitVec 24) : (x.qset r l w).stamp = x.stamp := rfl
@[simp] theorem qset_last (x : Pack) (r l : Nat) (w : BitVec 24) : (x.qset r l w).last = x.last := rfl
@[simp] theorem qset_forced (x : Pack) (r l : Nat) (w : BitVec 24) : (x.qset r l w).forced = x.forced := rfl
@[simp] theorem qset_yielded (x : Pack) (r l : Nat) (w : BitVec 24) : (x.qset r l w).yielded = x.yielded := rfl
@[simp] theorem qset_uncounted (x : Pack) (r l : Nat) (w : BitVec 24) : (x.qset r l w).uncounted = x.uncounted := rfl
@[simp] theorem qset_lclk (x : Pack) (r l : Nat) (w : BitVec 24) : (x.qset r l w).lclk = x.lclk := rfl
@[simp] theorem qset_beta (x : Pack) (r l : Nat) (w : BitVec 24) : (x.qset r l w).beta = x.beta := rfl
@[simp] theorem qset_seed (x : Pack) (r l : Nat) (w : BitVec 24) : (x.qset r l w).seed = x.seed := rfl
@[simp] theorem qset_trapv (x : Pack) (r l : Nat) (w : BitVec 24) : (x.qset r l w).trapv = x.trapv := rfl
@[simp] theorem qset_trapc (x : Pack) (r l : Nat) (w : BitVec 24) : (x.qset r l w).trapc = x.trapc := rfl
@[simp] theorem qset_trapa (x : Pack) (r l : Nat) (w : BitVec 24) : (x.qset r l w).trapa = x.trapa := rfl
@[simp] theorem qset_xbnd (x : Pack) (r l : Nat) (w : BitVec 24) : (x.qset r l w).xbnd = x.xbnd := rfl
@[simp] theorem qset_sect (x : Pack) (r l : Nat) (w : BitVec 24) : (x.qset r l w).sect = x.sect := rfl
@[simp] theorem qset_region (x : Pack) (r l : Nat) (w : BitVec 24) : (x.qset r l w).region = x.region := rfl
@[simp] theorem qset_refs (x : Pack) (r l : Nat) (w : BitVec 24) : (x.qset r l w).refs = x.refs := rfl
@[simp] theorem qset_pcause (x : Pack) (r l : Nat) (w : BitVec 24) : (x.qset r l w).pcause = x.pcause := rfl
@[simp] theorem qset_pinfo (x : Pack) (r l : Nat) (w : BitVec 24) : (x.qset r l w).pinfo = x.pinfo := rfl
@[simp] theorem qset_pscr (x : Pack) (r l : Nat) (w : BitVec 24) : (x.qset r l w).pscr = x.pscr := rfl
@[simp] theorem qset_rewritten (x : Pack) (r l : Nat) (w : BitVec 24) : (x.qset r l w).rewritten = x.rewritten := rfl
@[simp] theorem qset_pending (x : Pack) (r l : Nat) (w : BitVec 24) : (x.qset r l w).pending = x.pending := rfl
@[simp] theorem qset_image (x : Pack) (r l : Nat) (w : BitVec 24) : (x.qset r l w).image = x.image := rfl
@[simp] theorem qset_stopped (x : Pack) (r l : Nat) (w : BitVec 24) : (x.qset r l w).stopped = x.stopped := rfl

/-! A tag -/
@[simp] theorem tag_launch (x : Pack) (r : Nat) (b : Bool) : (x.tag r b).launch = x.launch := rfl
@[simp] theorem tag_block (x : Pack) (r : Nat) (b : Bool) : (x.tag r b).block = x.block := rfl
@[simp] theorem tag_pk (x : Pack) (r : Nat) (b : Bool) : (x.tag r b).pk = x.pk := rfl
@[simp] theorem tag_core (x : Pack) (r : Nat) (b : Bool) : (x.tag r b).core = x.core := rfl
@[simp] theorem tag_quarter (x : Pack) (r : Nat) (b : Bool) : (x.tag r b).quarter = x.quarter := rfl
@[simp] theorem tag_retired (x : Pack) (r : Nat) (b : Bool) : (x.tag r b).retired = x.retired := rfl
@[simp] theorem tag_present (x : Pack) (r : Nat) (b : Bool) : (x.tag r b).present = x.present := rfl
@[simp] theorem tag_gang (x : Pack) (r : Nat) (b : Bool) : (x.tag r b).gang = x.gang := rfl
@[simp] theorem tag_lead (x : Pack) (r : Nat) (b : Bool) : (x.tag r b).lead = x.lead := rfl
@[simp] theorem tag_heel (x : Pack) (r : Nat) (b : Bool) : (x.tag r b).heel = x.heel := rfl
@[simp] theorem tag_kennel (x : Pack) (r : Nat) (b : Bool) : (x.tag r b).kennel = x.kennel := rfl
@[simp] theorem tag_v (x : Pack) (r : Nat) (b : Bool) : (x.tag r b).v = x.v := rfl
@[simp] theorem tag_s (x : Pack) (r : Nat) (b : Bool) : (x.tag r b).s = x.s := rfl
@[simp] theorem tag_p (x : Pack) (r : Nat) (b : Bool) : (x.tag r b).p = x.p := rfl
@[simp] theorem tag_q (x : Pack) (r : Nat) (b : Bool) : (x.tag r b).q = x.q := rfl
@[simp] theorem tag_gs (x : Pack) (r : Nat) (b : Bool) : (x.tag r b).gs = x.gs := rfl
@[simp] theorem tag_fholds (x : Pack) (r : Nat) (b : Bool) : (x.tag r b).fholds = x.fholds := rfl
@[simp] theorem tag_k (x : Pack) (r : Nat) (b : Bool) : (x.tag r b).k = x.k := rfl
@[simp] theorem tag_stamp (x : Pack) (r : Nat) (b : Bool) : (x.tag r b).stamp = x.stamp := rfl
@[simp] theorem tag_last (x : Pack) (r : Nat) (b : Bool) : (x.tag r b).last = x.last := rfl
@[simp] theorem tag_forced (x : Pack) (r : Nat) (b : Bool) : (x.tag r b).forced = x.forced := rfl
@[simp] theorem tag_yielded (x : Pack) (r : Nat) (b : Bool) : (x.tag r b).yielded = x.yielded := rfl
@[simp] theorem tag_uncounted (x : Pack) (r : Nat) (b : Bool) : (x.tag r b).uncounted = x.uncounted := rfl
@[simp] theorem tag_lclk (x : Pack) (r : Nat) (b : Bool) : (x.tag r b).lclk = x.lclk := rfl
@[simp] theorem tag_beta (x : Pack) (r : Nat) (b : Bool) : (x.tag r b).beta = x.beta := rfl
@[simp] theorem tag_seed (x : Pack) (r : Nat) (b : Bool) : (x.tag r b).seed = x.seed := rfl
@[simp] theorem tag_trapv (x : Pack) (r : Nat) (b : Bool) : (x.tag r b).trapv = x.trapv := rfl
@[simp] theorem tag_trapc (x : Pack) (r : Nat) (b : Bool) : (x.tag r b).trapc = x.trapc := rfl
@[simp] theorem tag_trapa (x : Pack) (r : Nat) (b : Bool) : (x.tag r b).trapa = x.trapa := rfl
@[simp] theorem tag_xbnd (x : Pack) (r : Nat) (b : Bool) : (x.tag r b).xbnd = x.xbnd := rfl
@[simp] theorem tag_sect (x : Pack) (r : Nat) (b : Bool) : (x.tag r b).sect = x.sect := rfl
@[simp] theorem tag_region (x : Pack) (r : Nat) (b : Bool) : (x.tag r b).region = x.region := rfl
@[simp] theorem tag_refs (x : Pack) (r : Nat) (b : Bool) : (x.tag r b).refs = x.refs := rfl
@[simp] theorem tag_pcause (x : Pack) (r : Nat) (b : Bool) : (x.tag r b).pcause = x.pcause := rfl
@[simp] theorem tag_pinfo (x : Pack) (r : Nat) (b : Bool) : (x.tag r b).pinfo = x.pinfo := rfl
@[simp] theorem tag_pscr (x : Pack) (r : Nat) (b : Bool) : (x.tag r b).pscr = x.pscr := rfl
@[simp] theorem tag_rewritten (x : Pack) (r : Nat) (b : Bool) : (x.tag r b).rewritten = x.rewritten := rfl
@[simp] theorem tag_pending (x : Pack) (r : Nat) (b : Bool) : (x.tag r b).pending = x.pending := rfl
@[simp] theorem tag_image (x : Pack) (r : Nat) (b : Bool) : (x.tag r b).image = x.image := rfl
@[simp] theorem tag_stopped (x : Pack) (r : Nat) (b : Bool) : (x.tag r b).stopped = x.stopped := rfl

/-! ### Reading back -/

theorem nth_modNth {α : Type} (d : α) (l : List α) (i j : Nat) (f : α → α) :
    nth d (modNth l i f) j = if i = j ∧ i < l.length then f (nth d l i) else nth d l j := by
  simp only [nth, modNth, List.getD_eq_getElem?_getD, List.getElem?_modify]
  split
  · subst ‹i = j›
    by_cases h : i < l.length <;> simp [h]
  · simp [‹¬i = j›]

/-- A pack after an update of a pack. -/
theorem pack_modPack (s : State) (p q : Nat) (f : Pack → Pack) :
    (s.modPack p f).pack q = if p = q ∧ p < s.packs.length then f (s.pack p) else s.pack q :=
  nth_modNth noPack s.packs p q f
theorem pack_modPack_other (s : State) {p q : Nat} (f : Pack → Pack) (h : p ≠ q) : (s.modPack p f).pack q = s.pack q := by
  rw [pack_modPack, if_neg (fun e => h e.1)]
theorem pack_modPack_same (s : State) {p : Nat} (f : Pack → Pack) (h : p < s.packs.length) : (s.modPack p f).pack p = f (s.pack p) := by
  rw [pack_modPack, if_pos ⟨rfl, h⟩]
theorem length_modPack (s : State) (p : Nat) (f : Pack → Pack) : (s.modPack p f).packs.length = s.packs.length := by
  simp [State.modPack, modNth]
theorem launch_modLaunch (s : State) (i j : Nat) (f : Launch → Launch) :
    (s.modLaunch i f).launch j = if i = j ∧ i < s.launches.length then f (s.launch i) else s.launch j :=
  nth_modNth noLaunch s.launches i j f
theorem block_modBlock (s : State) (i j : Nat) (f : Block → Block) :
    (s.modBlock i f).block j = if i = j ∧ i < s.blocks.length then f (s.block i) else s.block j :=
  nth_modNth noBlock s.blocks i j f
theorem part_modPart (s : State) (i j : Nat) (f : Part → Part) :
    (s.modPart i f).part j = if i = j ∧ i < s.parts.length then f (s.part i) else s.part j :=
  nth_modNth ({} : Part) s.parts i j f

theorem nth_set {α : Type} (d : α) (l : List α) (i j : Nat) (v : α) :
    nth d (l.set i v) j = if i = j ∧ i < l.length then v else nth d l j := by
  simp only [nth, List.getD_eq_getElem?_getD, List.getElem?_set]
  by_cases h : i = j
  · subst h
    by_cases hi : i < l.length <;> simp [hi]
  · simp [h]

/-- A scalar register after a write of one. -/
theorem sget_sset (x : Pack) (r t : Nat) (w : W64) :
    (x.sset r w).sget t = if r = t ∧ r < x.s.length then w else x.sget t := nth_set 0 x.s r t w
/-- A vector lane after a write of one. -/
theorem vget_vset (x : Pack) {r t l m : Nat} (w : W32) (hl : l < 16) (hm : m < 16) :
    (x.vset r l w).vget t m = if r = t ∧ l = m ∧ 16 * r + l < x.v.length then w else x.vget t m := by
  have e : (16 * r + l = 16 * t + m ∧ 16 * r + l < x.v.length) ↔ (r = t ∧ l = m ∧ 16 * r + l < x.v.length) := by omega
  simp only [Pack.vget, Pack.vset, nth_set, e]
/-- A Q lane after a write of one. -/
theorem qget_qset (x : Pack) {r t l m : Nat} (w : BitVec 24) (hl : l < 16) (hm : m < 16) :
    (x.qset r l w).qget t m = if r = t ∧ l = m ∧ 16 * r + l < x.q.length then w else x.qget t m := by
  have e : (16 * r + l = 16 * t + m ∧ 16 * r + l < x.q.length) ↔ (r = t ∧ l = m ∧ 16 * r + l < x.q.length) := by omega
  simp only [Pack.qget, Pack.qset, nth_set, e]
/-- The tag of a register after a write of one. -/
theorem tagB_tag (x : Pack) (r t : Nat) (b : Bool) :
    (x.tag r b).tagB t = if r = t ∧ r < x.tags.length then b else x.tagB t := nth_set false x.tags r t b
/-- A predicate after a write of one; P7 reads true whatever is written (R70). -/
theorem pget_pset (x : Pack) (r t : Nat) (m v : Lanes) (h : t ≠ 7) :
    (x.pset r m v).pget t = if r = t ∧ r < x.p.length then (x.pget r &&& ~~~ m) ||| (v &&& m) else x.pget t := by
  simp only [Pack.pget, Pack.pset, if_neg h, nth_modNth]
  by_cases e : r = t
  · subst e; simp [h]
  · simp [e]
theorem pget_true (x : Pack) : x.pget 7 = 0xFFFF := rfl

end Sys2Proof.Machine
end

