-- ==== Sys2Proof/Laws/Issue.lean ====
section
/-!
SUPPORT. What the issue of an instruction can do, once for every instruction: the members, the updates of several packs, the
retirement, and the results that the shared operand forms give.
-/
namespace Sys2Proof.Machine
open Sys2Proof

/-! ### Updates of several packs -/

theorem eachPack_nil (s : State) (f : Nat → Pack → Pack) : eachPack s [] f = s := rfl
theorem eachPack_cons (s : State) (p : Nat) (ps : List Nat) (f : Nat → Pack → Pack) :
    eachPack s (p :: ps) f = eachPack (s.modPack p (f p)) ps f := rfl
/-- Only the packs change. -/
theorem eachPack_rest (s : State) (ps : List Nat) (f : Nat → Pack → Pack) :
    eachPack s ps f = { s with packs := (eachPack s ps f).packs } := by
  induction ps generalizing s with
  | nil => rfl
  | cons p ps ih => rw [eachPack_cons, ih]; rfl
theorem length_eachPack (s : State) (ps : List Nat) (f : Nat → Pack → Pack) :
    (eachPack s ps f).packs.length = s.packs.length := by
  induction ps generalizing s with
  | nil => rfl
  | cons p ps ih => rw [eachPack_cons, ih, length_modPack]
/-- Each listed pack is changed once. -/
theorem pack_eachPack (s : State) (ps : List Nat) (f : Nat → Pack → Pack) (hn : ps.Nodup) (hl : ∀ p ∈ ps, p < s.packs.length)
    (p : Nat) : (eachPack s ps f).pack p = if p ∈ ps then f p (s.pack p) else s.pack p := by
  induction ps generalizing s with
  | nil => simp [eachPack_nil]
  | cons q ps ih =>
    have hq := List.nodup_cons.1 hn
    rw [eachPack_cons, ih _ hq.2 (fun r hr => by rw [length_modPack]; exact hl r (List.mem_cons_of_mem _ hr))]
    by_cases e : q = p
    · subst e
      rw [if_neg hq.1, if_pos (List.mem_cons_self ..), pack_modPack_same _ _ (hl q (List.mem_cons_self ..))]
    · rw [pack_modPack_other _ _ e]
      simp [List.mem_cons, Ne.symm e]

/-! ### The issue -/

/-- A pack that is not there has retired. -/
theorem lt_of_not_retired (s : State) {p : Nat} (h : (s.pack p).retired = false) : p < s.packs.length := by
  by_cases hp : p < s.packs.length
  · exact hp
  · simp [State.pack, nth, List.getD_eq_getElem?_getD, List.getElem?_eq_none (Nat.le_of_not_lt hp), noPack] at h

/-- What an issue's context holds: the state with the team split at most, members without repeats, each present and not
retired. -/
structure CxFacts (s : State) (cx : Cx) (t : State) : Prop where
  rest : t = { s with packs := t.packs }
  nodup : cx.packs.Nodup
  alive : ∀ p ∈ cx.packs, (t.pack p).retired = false
  same : ∀ p, t.pack p = { s.pack p with gang := (t.pack p).gang }

theorem CxFacts.there {s : State} {cx : Cx} {t : State} (h : CxFacts s cx t) (p : Nat) (hp : p ∈ cx.packs) :
    p < t.packs.length := lt_of_not_retired t (h.alive p hp)

theorem liveTeam_nodup (s : State) (p : Nat) : (s.liveTeam p).Nodup := by
  refine List.Pairwise.filter _ ?_
  simp only [State.team, List.pairwise_map]
  exact List.nodup_range.imp (fun h e => h (by omega))
theorem liveTeam_alive (s : State) (p : Nat) : ∀ q ∈ s.liveTeam p, (s.pack q).retired = false := by
  intro q hq
  simpa using (List.mem_filter.1 hq).2

/-- Splitting a team changes nothing but that its packs no longer issue ganged (R25). -/
theorem split_facts (s : State) (ps : List Nat) :
    let t := ps.foldl (fun s m => s.modPack m (fun y => { y with gang := false })) s
    t = { s with packs := t.packs } ∧ (∀ p, t.pack p = { s.pack p with gang := (t.pack p).gang }) := by
  induction ps generalizing s with
  | nil => exact ⟨rfl, fun p => rfl⟩
  | cons p ps ih =>
    simp only [List.foldl_cons]
    have h := ih (s.modPack p (fun y => { y with gang := false }))
    refine ⟨h.1.trans rfl, fun q => (h.2 q).trans ?_⟩
    rw [pack_modPack]
    split
    · obtain ⟨rfl, -⟩ := ‹_ ∧ _›; rfl
    · rfl

theorem cxOf_facts {i : Instr} {s : State} {cx : Cx} {t : State} (h : cxOf i s = some (cx, t)) : CxFacts s cx t := by
  simp only [cxOf] at h
  split at h
  · split at h
    · cases h
    · rename_i hr
      simp only [Bool.or_eq_true, not_or, Bool.not_eq_true] at hr
      split at h
      · split at h
        · cases h
          have hs := split_facts s (s.liveTeam s.focus.1)
          exact ⟨hs.1, by simp, by
            intro p hp
            rw [List.mem_singleton.1 hp, hs.2]
            exact hr.1, hs.2⟩
        · cases h
          exact ⟨rfl, liveTeam_nodup s _, liveTeam_alive s _, fun _ => rfl⟩
      · cases h
        exact ⟨rfl, by simp, by simpa using hr.1, fun _ => rfl⟩
  · cases h

theorem Issues.facts {i : Instr} {s : State} {cx : Cx} {t : State} (h : Issues i s cx t) : CxFacts s cx t := cxOf_facts h.focus

/-- THE ISSUE RULE: where the checks hold, an issue is what its body comes to. -/
theorem issue_eq {i : Instr} {s : State} {cx : Cx} {t : State} (h : Issues i s cx t) (body : Cx → State → M State) :
    issue i s body = finish i cx t (body cx t) := by
  have hp : cx.packs.all (fun p => placeOk i cx (t.pack p).priv) = true := by simpa using h.placed
  have ha : cx.packs.all (fun p => decide (i.vtop ≤ (t.pack p).alloc)) = true := by simpa using h.alloc
  have hf : cx.packs.any (interlocked t i) = false := by simpa using h.free
  simp [issue, h.focus, guarded, hp, ha, hf, h.legal]

/-! ### Leaving the merge table and retiring -/

theorem leaveMerge_rest (s : State) (w : Nat) :
    s.leaveMerge w = { s with merges := (s.leaveMerge w).merges, mshr := (s.leaveMerge w).mshr } := rfl
theorem leaveAll_rest (s : State) (ps : List Nat) (k : Nat) :
    let u := ps.foldl (fun s p => s.leaveMerge (waiterOf p k)) s
    u = { s with merges := u.merges, mshr := u.mshr } := by
  induction ps generalizing s with
  | nil => rfl
  | cons p ps ih => simp only [List.foldl_cons]; exact (ih _).trans rfl

theorem retireAll_eq (i : Instr) (cx : Cx) (s : State) (ps : List Nat) (c : Nat) (hc : s.clk.toNat = c) :
    ps.foldl (fun s p => s.modPack p (retireIn i cx s.clk.toNat)) s = eachPack s ps (fun _ => retireIn i cx c) := by
  induction ps generalizing s with
  | nil => rfl
  | cons p ps ih => subst hc; simp only [List.foldl_cons, eachPack_cons]; exact ih _ rfl

/-- THE RETIREMENT RULE: a body that answers `v`, with the members still there, gives a next state in which the instruction
has retired in them. -/
theorem finish_ok {i : Instr} {cx : Cx} {t v : State} (hn : cx.packs.Nodup) (hl : ∀ p ∈ cx.packs, p < v.packs.length) :
    ∃ u, finish i cx t (.ok v) = .next u ∧ Retires i cx v u := by
  refine ⟨_, rfl, ?_, ?_⟩
  · intro p
    rw [retireAll, retireAll_eq i cx _ _ _ rfl, pack_eachPack _ _ _ hn]
    · rw [leaveAll_rest v cx.packs cx.slot]; rfl
    · rw [leaveAll_rest v cx.packs cx.slot]; exact hl
  · rw [retireAll, retireAll_eq i cx _ _ _ rfl, eachPack_rest, leaveAll_rest v cx.packs cx.slot]

/-- An instruction whose body answers `v` where it issues completes. -/
theorem completes {i : Instr} {s : State} {cx : Cx} {t v : State} (h : Issues i s cx t) {body : Cx → State → M State}
    (hb : body cx t = .ok v) (hl : v.packs.length = t.packs.length) : ∃ u, issue i s body = .next u ∧ Retires i cx v u := by
  rw [issue_eq h, hb]
  exact finish_ok h.facts.nodup (fun p hp => by rw [hl]; exact h.facts.there p hp)

/-! ### The operand forms -/

/-- A change of the members that a condition picks. -/
theorem eachPack_filter {t : State} {ps : List Nat} (c : Nat → Bool) (f : Nat → Pack → Pack) (hn : ps.Nodup)
    (hl : ∀ p ∈ ps, p < t.packs.length) :
    PacksOnly t (eachPack t (ps.filter c) f) (fun p x => if p ∈ ps ∧ c p = true then f p x else x) := by
  refine ⟨fun p => ?_, eachPack_rest _ _ _⟩
  rw [pack_eachPack _ _ _ (List.Pairwise.filter _ hn) (fun p hp => hl p (List.mem_filter.1 hp).1)]
  simp only [List.mem_filter]

theorem scalarOp_only {s : State} {cx : Cx} {t : State} (h : CxFacts s cx t) (g : Guard) (d : Fld) (f : Pack → W64) :
    ∃ v, scalarOp g d cx t f = .ok v ∧ v.packs.length = t.packs.length ∧
      PacksOnly t v (fun p x => if p ∈ cx.packs ∧ t.ucond cx g p = true then x.sset (d.toNat - 384) (f x) else x) :=
  ⟨_, rfl, length_eachPack _ _ _, eachPack_filter _ _ h.nodup h.there⟩

theorem acting_only {s : State} {cx : Cx} {t : State} (h : CxFacts s cx t) (g : Guard) (f : Nat → Pack → Pack) :
    (eachPack t (t.acting cx g) f).packs.length = t.packs.length ∧
      PacksOnly t (eachPack t (t.acting cx g) f) (fun p x => if p ∈ cx.packs ∧ t.active cx g p ≠ 0 then f p x else x) := by
  refine ⟨length_eachPack _ _ _, ?_⟩
  have e := eachPack_filter (fun p => t.active cx g p != 0) f h.nodup h.there
  refine ⟨fun p => (e.packs p).trans ?_, e.rest⟩
  simp

/-- THE SCALAR RULE (R224, R227). -/
theorem scalarResult_of {i : Instr} {g : Guard} {d : Fld} {val : Pack → W64} {out : State → Nat → W64}
    (he : ∀ s, exec i s = issue i s (scalarOp g d · · val)) (ho : ∀ t p, out t p = val (t.pack p)) : ScalarResult i g d out := by
  intro s cx t h
  obtain ⟨v, hb, hl, hp⟩ := scalarOp_only h.facts g d val
  obtain ⟨u, hu, hr⟩ := completes h (body := (scalarOp g d · · val)) hb hl
  exact ⟨v, u, (he s).trans hu, hr, ⟨fun p => by rw [hp.packs p, ho], hp.rest⟩⟩

/-- THE VECTOR RULE (R206, R237 to R239). -/
theorem vectorResult_of {i : Instr} {g : Guard} {d : Fld} {srcs : List Fld} {f : State → Pack → Nat → W32}
    {out : State → Nat → Nat → W32} (he : ∀ s, exec i s = issue i s (fun cx s => vecOp g d srcs cx s (f s)))
    (ho : ∀ t p l, out t p l = f t (t.pack p) l) : VectorResult i g d srcs out := by
  intro s cx t h
  obtain ⟨hl, hp⟩ := acting_only h.facts g (fun p x =>
    (x.writeLanes d.toNat (t.active cx g p) (f t x)).settleTag d.toNat (t.active cx g p) (srcs.any x.srcB))
  obtain ⟨u, hu, hr⟩ := completes h (body := fun cx s => vecOp g d srcs cx s (f s)) rfl hl
  exact ⟨_, u, (he s).trans hu, hr, ⟨fun p => by rw [hp.packs p, ← funext (ho t p)], hp.rest⟩⟩

/-- Nothing to raise where no checked source is tagged B (R180). -/
theorem bndUse_ok {t : State} {cx : Cx} {g : Guard} {hard : List Fld}
    (h : ∀ p ∈ cx.packs, t.active cx g p ≠ 0 → ∀ f ∈ hard, (t.pack p).srcB f = false) :
    bndUse t (t.acting cx g) hard = .ok () := by
  have : (t.acting cx g).filterMap (fun p => (hard.find? (fun f => (t.pack p).srcB f)).map (fun f => (p, f.setWidth 64))) = [] := by
    refine List.filterMap_eq_nil_iff.2 (fun p hp => ?_)
    have hp := List.mem_filter.1 hp
    rw [Option.map_eq_none_iff, List.find?_eq_none]
    intro f hf
    rw [h p hp.1 (by simpa using hp.2) f hf]; simp
  simp [bndUse, raiseIn, this]

/-- THE PREDICATE RULE (R229). -/
theorem predResult_of {i : Instr} {g : Guard} {d : Fld} {hard : List Fld} {f : State → Pack → Nat → Bool}
    {out : State → Nat → Nat → Bool}
    (he : ∀ s, exec i s = issue i s (fun cx s => do bndUse s (s.acting cx g) hard; predOp g d cx s (f s)))
    (ho : ∀ t p l, out t p l = f t (t.pack p) l) : PredResult i g d hard out := by
  intro s cx t h hb
  obtain ⟨hl, hp⟩ := acting_only h.facts g (fun p x => x.writePred d.toNat (t.active cx g p) (f t x))
  obtain ⟨u, hu, hr⟩ := completes h (body := fun cx s => do bndUse s (s.acting cx g) hard; predOp g d cx s (f s))
    (v := eachPack t (t.acting cx g) (fun p x => x.writePred d.toNat (t.active cx g p) (f t x))) (by rw [bndUse_ok hb]; rfl) hl
  exact ⟨_, u, (he s).trans hu, hr, ⟨fun p => by rw [hp.packs p, ← funext (ho t p)], hp.rest⟩⟩
/-- The same of a predicate instruction without checked sources. -/
theorem predResult_free {i : Instr} {g : Guard} {d : Fld} {f : State → Pack → Nat → Bool} {out : State → Nat → Nat → Bool}
    (he : ∀ s, exec i s = issue i s (fun cx s => predOp g d cx s (f s)))
    (ho : ∀ t p l, out t p l = f t (t.pack p) l) : PredResult i g d [] out := by
  intro s cx t h _
  obtain ⟨hl, hp⟩ := acting_only h.facts g (fun p x => x.writePred d.toNat (t.active cx g p) (f t x))
  obtain ⟨u, hu, hr⟩ := completes h (body := fun cx s => predOp g d cx s (f s)) rfl hl
  exact ⟨_, u, (he s).trans hu, hr, ⟨fun p => by rw [hp.packs p, ← funext (ho t p)], hp.rest⟩⟩

/-- THE Q RULE (R230). -/
theorem qResult_of {i : Instr} {g : Guard} {d : Fld} {hard : List Fld} {f : State → Pack → Nat → BitVec 24}
    {out : State → Nat → Nat → BitVec 24} {body : Cx → State → M State} (he : ∀ s, exec i s = issue i s body)
    (hb : ∀ cx t, (∀ p ∈ cx.packs, t.active cx g p ≠ 0 → (∃ q ∈ cx.packs, (t.pack q).beta = 0x7F800000) →
      ∀ f ∈ hard, (t.pack p).srcB f = false) → body cx t = qOp g d cx t (f t))
    (ho : ∀ t p l, out t p l = f t (t.pack p) l) : QResult i g d hard out := by
  intro s cx t h hh
  obtain ⟨hl, hp⟩ := acting_only h.facts g (fun p x =>
    (lanesOf (t.active cx g p)).foldl (fun y l => y.qset d.toNat l (f t x l)) x)
  obtain ⟨u, hu, hr⟩ := completes h (body := body) (hb cx t hh) hl
  exact ⟨_, u, (he s).trans hu, hr, ⟨fun p => by rw [hp.packs p]; simp only [ho], hp.rest⟩⟩

end Sys2Proof.Machine
end

