-- ==== Sys2Proof/Laws/Entry.lean ====
section
/-!
SUPPORT. What an issue that does not complete comes to: an exception of one pack, a wait, and the checks of every instruction;
and the scalar instructions that give each member its own value.
-/
namespace Sys2Proof.Machine
open Sys2Proof

/-- Every instruction issues: its meaning is a body under the shared issue. -/
theorem exec_issue (i : Instr) (he : isEvent i = false) : ∃ body, ∀ s, exec i s = issue i s body := by
  cases i <;> first | exact ⟨_, fun s => rfl⟩ | simp [isEvent, encode] at he

/-- A pack without a region has none to end. -/
theorem endRegion_none {s : State} {p k : Nat} (h : (s.pack p).region = none) : endRegion s p k = .ok s := by
  simp only [endRegion, h]
/-- An exception of the issue of one pack outside a region: the trap, the saved PC at the instruction, and what the end of the launch
brings where it ends it. -/
theorem beforeTrap_one {s : State} {p k : Nat} (hr : TrapsAtOnce s p k) : beforeTrap s k [p] = .ok s := by
  have he : endRegions s k [p] = .ok s := by
    simp only [endRegions, endRegion_none hr.closed]; rfl
  have hx : [p].any (fun p => ((s.pack p).slot (1 - k)).stall == some .xmv) = false := by simpa using hr.noXmv
  simp only [beforeTrap, hx, waitIf]
  exact he
theorem takeExn_single {cx : Cx} {s : State} {p c : Nat} {info : W64} (hp : cx.packs = [p]) (hr : TrapsAtOnce s p cx.slot) :
    takeExn cx s { cause := c, info := info } = settleEnded (takeTrap (s.leaveMerge (waiterOf p cx.slot)) p cx.slot c info) := by
  simp [takeExn, hp, beforeTrap_one hr]
/-- Raising a cause in a body raises it in the issuing pack (R371 to R380). -/
theorem finish_raise {i : Instr} {cx : Cx} {s : State} {p c : Nat} {info : W64} (hp : cx.packs = [p]) (hr : TrapsAtOnce s p cx.slot) :
    finish i cx s (raise c info) = .next (settleEnded (takeTrap (s.leaveMerge (waiterOf p cx.slot)) p cx.slot c info)) := by
  show Host.Outcome.next (takeExn cx s { cause := c, info := info }) = _
  rw [takeExn_single hp hr]
/-- A wait blocks the slot at the instruction. -/
theorem finish_stall {i : Instr} {cx : Cx} {s t : State} {w : Stall} {p : Nat} (hp : cx.packs = [p]) :
    finish i cx s (.error (.stall t w)) = .next (t.modSlot p cx.slot (fun sl => sl.block w t.clk.toNat)) := by
  simp [finish, hp]

/-- An instruction out of place, with an illegal field or a register beyond the allocation takes ILLOP (R201, R202). -/
theorem issue_illop {i : Instr} {s : State} {cx : Cx} {t : State} {p : Nat} (body : Cx → State → M State) (hc : cxOf i s = some (cx, t))
    (hp : cx.packs = [p]) (hr : TrapsAtOnce t p cx.slot)
    (h : ¬ (placeOk i cx (t.pack p).priv = true ∧ i.wellFormed = true ∧ i.vtop ≤ (t.pack p).alloc)) :
    issue i s body = .next (settleEnded (takeTrap (t.leaveMerge (waiterOf p cx.slot)) p cx.slot cILLOP (BitVec.ofNat 64 cx.pc))) := by
  have : (!cx.packs.all (fun p => placeOk i cx (t.pack p).priv) || !i.wellFormed ||
      !cx.packs.all (fun p => decide (i.vtop ≤ (t.pack p).alloc))) = true := by
    rw [hp]; simp only [List.all_cons, List.all_nil, Bool.and_true]
    cases h1 : placeOk i cx (t.pack p).priv <;> cases h2 : i.wellFormed <;> simp_all
  simp only [issue, hc, guarded, this, if_true]
  rw [finish_raise hp hr]
  rfl
/-- A legal instruction with an operand that an outstanding operation will write waits (R114). -/
theorem issue_interlocked {i : Instr} {s : State} {cx : Cx} {t : State} {p : Nat} (body : Cx → State → M State) (hc : cxOf i s = some (cx, t))
    (hp : cx.packs = [p]) (h : placeOk i cx (t.pack p).priv = true ∧ i.wellFormed = true ∧ i.vtop ≤ (t.pack p).alloc)
    (hi : interlocked t i p = true) :
    issue i s body = .next (t.modSlot p cx.slot (fun sl => sl.block .interlock t.clk.toNat)) := by
  have : guarded i cx t body = .error (.stall t .interlock) := by simp [guarded, hp, h.1, h.2.1, h.2.2, hi]
  simp only [issue, hc, this]
  exact finish_stall hp

/-- A scalar instruction that changes each member by its own function: `f` on the members whose uniform guard condition holds. -/
theorem eachScalar_only {i : Instr} {g : Guard} {s : State} {cx : Cx} {t : State} (h : Issues i s cx t) (f : Nat → Pack → Pack)
    (F : State → Cx → Nat → Pack → Pack) (he : exec i s = issue i s (fun cx s => .ok (eachScalar s cx g (F s cx))))
    (hf : ∀ p, F t cx p (t.pack p) = f p (t.pack p)) :
    ∃ v u, exec i s = .next u ∧ Retires i cx v u ∧ PacksOnly t v (fun p x => if p ∈ cx.packs ∧ t.ucond cx g p = true then f p x else x) := by
  obtain ⟨u, hu, hr⟩ := completes h (body := fun cx s => .ok (eachScalar s cx g (F s cx))) rfl (length_eachPack _ _ _)
  refine ⟨_, u, he.trans hu, hr, ?_⟩
  have e := eachPack_filter (t := t) (t.ucond cx g) (F t cx) h.facts.nodup h.facts.there
  refine ⟨fun p => (e.packs p).trans ?_, e.rest⟩
  rw [hf p]

/-- An operation that is issued and counted: one more operation, its class and its hold counted in its pack (R113, R189). -/
theorem addOp_rest (s : State) (cx : Cx) (grp p : Nat) (k : KCls) (tr : PMap) (dv ds : List Nat) (b : Body) :
    addOp s cx grp p k tr dv ds b = 
      { s with packs := (addOp s cx grp p k tr dv ds b).packs, ops := (addOp s cx grp p k tr dv ds b).ops, nextOp := s.nextOp + 1 } := rfl
theorem addOp_ops (s : State) (cx : Cx) (grp p : Nat) (k : KCls) (tr : PMap) (dv ds : List Nat) (b : Body) :
    (addOp s cx grp p k tr dv ds b).ops = s.ops ++
      [{ id := s.nextOp, grp := grp, pack := some p, launch := (s.pack p).launch, k := some k, flag := cx.flag, tr := tr, dv := dv, ds := ds,
         fwd := match (s.pack p).region with | some r => r.flat | none => [], body := b }] := rfl

/-- An event that is not due stops; one that is gives the state named. -/
theorem due_some {n : String} {t : State} : due n (some t) = .next t := rfl
theorem due_none {n : String} : due n none = .fault (.notDue n) := rfl
theorem due_next {n : String} {r : Option State} {t : State} (h : due n r = .next t) : r = some t := by
  cases r with
  | none => cases h
  | some u => cases h; rfl

/-- What taking a trap can change: the packs, and, where it ends the launch, what the end of a launch changes. -/
theorem takeTrap_user {s : State} {p k c : Nat} {info : W64} (h1 : (s.pack p).priv = false) (h2 : (s.pack p).inUserHandler = false)
    (h3 : c < 16) (h4 : (s.pack p).trapv ≠ 0) (h5 : s.canPush p 3 = true) :
    takeTrap s p k c info = s.modPack p (fun x => (x.setTrap c info).enter k c false x.trapv.toNat) := by
  simp only [takeTrap, h1, h2, h5, if_neg h4, if_neg (Nat.not_le.2 h3), Bool.false_eq_true, if_false, Bool.not_true]
theorem takeTrap_fault {s : State} {p k c : Nat} {info : W64} (h1 : (s.pack p).priv = false) (h2 : (s.pack p).inUserHandler = false)
    (h3 : 16 ≤ c) :
    takeTrap s p k c info = enterPriv (s.modPack p (fun x => (x.setTrap c info).setFault c info)) p k c := by
  simp [takeTrap, h1, h2, h3]
theorem takeTrap_double {s : State} {p k c : Nat} {info : W64} (h1 : (s.pack p).priv = false) (h2 : (s.pack p).inUserHandler = true) :
    takeTrap s p k c info = enterPriv (s.modPack p (fun x => (x.setTrap c info).setFault cDOUBLE (BitVec.ofNat 64 c))) p k cDOUBLE := by
  simp [takeTrap, h1, h2]
theorem takeTrap_priv {s : State} {p k c : Nat} {info : W64} (h1 : (s.pack p).priv = true) :
    takeTrap s p k c info = endAtFault (s.modPack p (fun x =>
      let x := x.setTrap c info; if 0x10 ≤ c then x.setFault c info else x)) p true none := by
  simp [takeTrap, h1]

/-! ### Filling translation caches (R394) -/

/-- Putting an entry changes no other cache entry but one that makes way. -/
theorem tlbPut_rest (s : State) (e : Tlb) : s.tlbPut e = { s with tlbs := (s.tlbPut e).tlbs } := by
  simp only [State.tlbPut]
  split
  · rfl
  · split <;> rfl
theorem mem_tlbPut {s : State} {e f : Tlb} (h : f ∈ (s.tlbPut e).tlbs) : f ∈ s.tlbs ∨ f = e := by
  simp only [State.tlbPut] at h
  split at h
  · simpa using h
  · split at h
    · rcases List.mem_append.1 h with h | h
      · exact .inl (List.mem_of_mem_erase h)
      · exact .inr (by simpa using h)
    · exact .inl h
theorem TlbsFrom.refl (t : State) : TlbsFrom t t := fun _ h => .inl h
/-- One step of a fill: the state as it was, or with a copy in `tc` of an entry of the L2 TLB. -/
theorem TlbsFrom.put {t s : State} (h : TlbsFrom t s) {f : Tlb} (hf : f ∈ s.tlbs) (h2 : f.tc = .l2) (tc : Tc) :
    TlbsFrom t (s.tlbPut { f with tc := tc }) := by
  intro e he
  rcases mem_tlbPut he with he | rfl
  · exact h e he
  · rcases h f hf with hf | ⟨g, hg, hg2, h3⟩
    · exact .inr ⟨f, hf, h2, rfl⟩
    · exact .inr ⟨g, hg, hg2, by rw [h3]⟩
/-- One address looked up: the caches as they were, or one copy more. -/
theorem fillTc_one {t s : State} (h : TlbsFrom t s) (tc : Tc) (pasid : Nat) (a : Nat × Bool) :
    TlbsFrom t (s.fillTc tc pasid [a]) ∧ s.fillTc tc pasid [a] = { s with tlbs := (s.fillTc tc pasid [a]).tlbs } := by
  simp only [State.fillTc, List.foldl_cons, List.foldl_nil]
  split
  · exact ⟨h, rfl⟩
  · split
    · rename_i f hf
      split
      · exact ⟨h, rfl⟩
      · have hp := List.find?_some hf
        simp only [Bool.and_eq_true, beq_iff_eq] at hp
        exact ⟨h.put (List.mem_of_find?_eq_some hf) hp.1 tc, tlbPut_rest s _⟩
    · exact ⟨h, rfl⟩
theorem tlbs_only {s u v : State} (h1 : u = { s with tlbs := u.tlbs }) (h2 : v = { u with tlbs := v.tlbs }) :
    v = { s with tlbs := v.tlbs } := by
  rw [h1] at h2; exact h2
/-- A FILL changes the caches alone, and only copies what the L2 TLB holds. -/
theorem fillTc_from {t s : State} (h : TlbsFrom t s) (tc : Tc) (pasid : Nat) (as : List (Nat × Bool)) :
    TlbsFrom t (s.fillTc tc pasid as) ∧ s.fillTc tc pasid as = { s with tlbs := (s.fillTc tc pasid as).tlbs } := by
  induction as generalizing s with
  | nil => exact ⟨h, rfl⟩
  | cons a as ih =>
    obtain ⟨h1, h2⟩ := fillTc_one h tc pasid a
    obtain ⟨h3, h4⟩ := ih h1
    exact ⟨h3, tlbs_only h2 h4⟩
theorem fillEach_from {t s : State} (h : TlbsFrom t s) (as : List (Nat × List (Nat × Bool))) :
    TlbsFrom t (s.fillEach as) ∧ s.fillEach as = { s with tlbs := (s.fillEach as).tlbs } := by
  induction as generalizing s with
  | nil => exact ⟨h, rfl⟩
  | cons a as ih =>
    obtain ⟨h1, h2⟩ := fillTc_from h (.l1 (s.pack a.1).core) (s.launchOf a.1).pasid a.2
    obtain ⟨h3, h4⟩ := ih h1
    exact ⟨h3, tlbs_only h2 h4⟩

end Sys2Proof.Machine
end

