-- ==== Sys2Proof/Laws/Map.lean ====
section
/-!
SUPPORT. The laws of the canonical maps: reading after writing, and every operation keeps the canonical form.
-/
namespace Sys2Proof.Machine

theorem mapGet_nil {α : Type} (k : Nat) : mapGet ([] : NMap α) k = none := rfl

/-- No key at or below the bound of a sorted map is listed. -/
theorem mapGet_below {α : Type} {lo : Nat} (m : NMap α) (h : mapSorted (some lo) m = true) {k : Nat} (hk : k ≤ lo) :
    mapGet m k = none := by
  cases m with
  | nil => rfl
  | cons e m =>
    obtain ⟨a, v⟩ := e
    simp only [mapSorted, Bool.and_eq_true, decide_eq_true_eq] at h
    simp only [mapGet]
    rw [if_neg (by omega), if_pos (by omega)]

theorem mapGet_put_same {α : Type} (m : NMap α) (k : Nat) (v : α) : mapGet (mapPut m k v) k = some v := by
  induction m with
  | nil => simp [mapPut, mapGet]
  | cons e m ih =>
    obtain ⟨a, w⟩ := e
    simp only [mapPut]
    split
    · simp [mapGet]
    · split
      · simp [mapGet]
      · simp only [mapGet]
        rw [if_neg ‹_›, if_neg ‹_›, ih]

theorem mapGet_put_other {α : Type} (m : NMap α) {j k : Nat} (v : α) (h : j ≠ k) : mapGet (mapPut m k v) j = mapGet m j := by
  induction m with
  | nil => simp [mapPut, mapGet, h]
  | cons e m ih =>
    obtain ⟨a, w⟩ := e
    simp only [mapPut]
    split
    · simp only [mapGet]
      by_cases hj : j < k
      · simp [h, hj, Nat.lt_trans hj ‹_›, Nat.ne_of_lt (Nat.lt_trans hj ‹_›)]
      · simp [h, hj]
    · split
      · subst ‹k = a›
        simp [mapGet, h]
      · simp only [mapGet]
        rw [ih]

theorem mapGet_del_other {α : Type} (m : NMap α) {j k : Nat} (h : j ≠ k) (lo : Option Nat) (hs : mapSorted lo m = true) :
    mapGet (mapDel m k) j = mapGet m j := by
  induction m generalizing lo with
  | nil => rfl
  | cons e m ih =>
    obtain ⟨a, w⟩ := e
    simp only [mapSorted, Bool.and_eq_true] at hs
    simp only [mapDel]
    split
    · rfl
    · split
      · subst ‹k = a›
        simp only [mapGet, if_neg h]
        split
        · exact mapGet_below m hs.2 (by omega)
        · rfl
      · simp only [mapGet]
        rw [ih _ hs.2]

theorem mapGet_del_same {α : Type} (m : NMap α) (k : Nat) (lo : Option Nat) (hs : mapSorted lo m = true) :
    mapGet (mapDel m k) k = none := by
  induction m generalizing lo with
  | nil => rfl
  | cons e m ih =>
    obtain ⟨a, w⟩ := e
    simp only [mapSorted, Bool.and_eq_true] at hs
    simp only [mapDel]
    split
    · simp [mapGet, Nat.ne_of_lt, *]
    · split
      · subst ‹k = a›
        exact mapGet_below m hs.2 (Nat.le_refl k)
      · simp only [mapGet]
        rw [if_neg ‹_›, if_neg ‹_›, ih _ hs.2]

theorem mapSorted_put {α : Type} (m : NMap α) (k : Nat) (v : α) (lo : Option Nat) (hs : mapSorted lo m = true)
    (hk : ∀ l, lo = some l → l < k) : mapSorted lo (mapPut m k v) = true := by
  induction m generalizing lo with
  | nil => cases lo with
    | none => rfl
    | some l => simp [mapPut, mapSorted, hk l rfl]
  | cons e m ih =>
    obtain ⟨a, w⟩ := e
    simp only [mapSorted, Bool.and_eq_true] at hs
    simp only [mapPut]
    split
    · simp only [mapSorted, Bool.and_eq_true, decide_eq_true_eq]
      exact ⟨by cases lo with | none => rfl | some l => simpa using hk l rfl, ‹k < a›, hs.2⟩
    · split
      · subst ‹k = a›
        simp [mapSorted, hs]
      · simp only [mapSorted, Bool.and_eq_true]
        exact ⟨hs.1, ih _ hs.2 (by intro l hl; cases hl; omega)⟩

theorem mapSorted_weaken {α : Type} (m : NMap α) {lo lo' : Option Nat} (hs : mapSorted lo' m = true)
    (h : ∀ l, lo = some l → ∃ l', lo' = some l' ∧ l ≤ l') : mapSorted lo m = true := by
  cases m with
  | nil => cases lo <;> rfl
  | cons e m =>
    obtain ⟨a, w⟩ := e
    simp only [mapSorted, Bool.and_eq_true] at hs ⊢
    refine ⟨?_, hs.2⟩
    cases lo with
    | none => rfl
    | some l =>
      obtain ⟨l', rfl, hl⟩ := h l rfl
      simp only [decide_eq_true_eq] at hs ⊢
      omega

theorem mapSorted_del {α : Type} (m : NMap α) (k : Nat) (lo : Option Nat) (hs : mapSorted lo m = true) :
    mapSorted lo (mapDel m k) = true := by
  induction m generalizing lo with
  | nil => exact hs
  | cons e m ih =>
    obtain ⟨a, w⟩ := e
    have hs' := hs
    simp only [mapSorted, Bool.and_eq_true] at hs'
    simp only [mapDel]
    split
    · exact hs
    · split
      · refine mapSorted_weaken m hs'.2 (fun l hl => ⟨a, rfl, ?_⟩)
        subst hl
        have := hs'.1
        simp only [decide_eq_true_eq] at this
        omega
      · simp only [mapSorted, Bool.and_eq_true]
        exact ⟨hs'.1, ih _ hs'.2⟩

theorem mapSorted_filter {α : Type} (m : NMap α) (f : Nat × α → Bool) (lo : Option Nat) (hs : mapSorted lo m = true) :
    mapSorted lo (m.filter f) = true := by
  induction m generalizing lo with
  | nil => exact hs
  | cons e m ih =>
    obtain ⟨a, w⟩ := e
    simp only [mapSorted, Bool.and_eq_true] at hs
    simp only [List.filter_cons]
    split
    · simp only [mapSorted, Bool.and_eq_true]
      exact ⟨hs.1, ih _ hs.2⟩
    · refine mapSorted_weaken _ (ih _ hs.2) (fun l hl => ⟨a, rfl, ?_⟩)
      subst hl
      have := hs.1
      simp only [decide_eq_true_eq] at this
      omega

theorem mem_mapPut {α : Type} (m : NMap α) (k : Nat) (v : α) {e : Nat × α} (h : e ∈ mapPut m k v) : e = (k, v) ∨ e ∈ m := by
  induction m with
  | nil => simpa [mapPut] using h
  | cons a m ih =>
    obtain ⟨a, w⟩ := a
    simp only [mapPut] at h
    split at h
    · simpa using h
    · split at h
      · rcases List.mem_cons.1 h with h | h
        · exact .inl h
        · exact .inr (List.mem_cons_of_mem _ h)
      · rcases List.mem_cons.1 h with h | h
        · exact .inr (h ▸ List.mem_cons_self ..)
        · exact (ih h).imp id (List.mem_cons_of_mem _)

theorem mem_mapDel {α : Type} (m : NMap α) (k : Nat) {e : Nat × α} (h : e ∈ mapDel m k) : e ∈ m := by
  induction m with
  | nil => exact h
  | cons a m ih =>
    obtain ⟨a, w⟩ := a
    simp only [mapDel] at h
    split at h
    · exact h
    · split at h
      · exact List.mem_cons_of_mem _ h
      · rcases List.mem_cons.1 h with h | h
        · exact h ▸ List.mem_cons_self ..
        · exact List.mem_cons_of_mem _ (ih h)

theorem mapWf_nil {α : Type} [DecidableEq α] (d : α) : mapWf d ([] : NMap α) = true := rfl

/-- Writing keeps the canonical form. -/
theorem mapWf_write {α : Type} [DecidableEq α] (d : α) (m : NMap α) (k : Nat) (v : α) (h : mapWf d m = true) :
    mapWf d (mapWrite d m k v) = true := by
  simp only [mapWf, Bool.and_eq_true, List.all_eq_true] at h ⊢
  simp only [mapWrite]
  split
  · exact ⟨mapSorted_del m k none h.1, fun e he => h.2 e (mem_mapDel m k he)⟩
  · refine ⟨mapSorted_put m k v none h.1 (by simp), fun e he => ?_⟩
    rcases mem_mapPut m k v he with rfl | he
    · simpa using ‹¬v = d›
    · exact h.2 e he

/-- Filtering keeps the canonical form. -/
theorem mapWf_filter {α : Type} [DecidableEq α] (d : α) (m : NMap α) (f : Nat × α → Bool) (h : mapWf d m = true) :
    mapWf d (m.filter f) = true := by
  simp only [mapWf, Bool.and_eq_true, List.all_eq_true] at h ⊢
  exact ⟨mapSorted_filter m f none h.1, fun e he => h.2 e (List.mem_filter.1 he).1⟩

/-- The byte written is the byte read. -/
theorem mapRead_write_same {α : Type} [DecidableEq α] (d : α) (m : NMap α) (k : Nat) (v : α) (h : mapWf d m = true) :
    mapRead d (mapWrite d m k v) k = v := by
  simp only [mapWf, Bool.and_eq_true] at h
  simp only [mapRead, mapWrite]
  split
  · rw [mapGet_del_same m k none h.1]; simp [*]
  · rw [mapGet_put_same]; rfl

/-- Every other key reads as before. -/
theorem mapRead_write_other {α : Type} [DecidableEq α] (d : α) (m : NMap α) {j k : Nat} (v : α) (h : mapWf d m = true)
    (hj : j ≠ k) : mapRead d (mapWrite d m k v) j = mapRead d m j := by
  simp only [mapWf, Bool.and_eq_true] at h
  simp only [mapRead, mapWrite]
  split
  · rw [mapGet_del_other m hj none h.1]
  · rw [mapGet_put_other m v hj]

end Sys2Proof.Machine
end

