-- ==== Sys2Proof/Laws/Memory.lean ====
section
/-!
SUPPORT. Every memory operation keeps the canonical form, and what a write leaves readable.
-/
namespace Sys2Proof.Machine
open Sys2Proof

/-! ### The invariant from its parts -/

/-- Only four fields matter to the invariant. -/
theorem Inv.of_eq {s t : State} (h : Inv s) (hr : t.mem.ram = s.mem.ram) (hl : t.mem.l2 = s.mem.l2) (hw : t.wbuf = s.wbuf)
    (hb : t.blocks = s.blocks) : Inv t :=
  ⟨hr ▸ h.ram, hl ▸ h.l2, hw ▸ h.wbuf, hb ▸ h.blocks⟩
/-- Another L2 that lists each word once. -/
theorem Inv.withL2 {s : State} (h : Inv s) {m : NMap L2Word} (hm : mapSorted none m = true) :
    Inv { s with mem := { s.mem with l2 := m } } := ⟨h.ram, hm, h.wbuf, h.blocks⟩
/-- A loop over states keeps what each turn keeps. -/
theorem foldl_keeps {α β : Type} {P : α → Prop} {f : α → β → α} (hf : ∀ a b, P a → P (f a b)) (l : List β) {a : α} (h : P a) :
    P (l.foldl f a) := by
  induction l generalizing a with
  | nil => exact h
  | cons b l ih => exact ih (hf a b h)
theorem inv_foldl {β : Type} {f : State → β → State} (hf : ∀ s b, Inv s → Inv (f s b)) (l : List β) {s : State} (h : Inv s) :
    Inv (l.foldl f s) := foldl_keeps hf l h
theorem inv_modPack {s : State} (h : Inv s) (p : Nat) (f : Pack → Pack) : Inv (s.modPack p f) := h.of_eq rfl rfl rfl rfl
theorem inv_modSlot {s : State} (h : Inv s) (p k : Nat) (f : Slot → Slot) : Inv (s.modSlot p k f) := h.of_eq rfl rfl rfl rfl
theorem inv_modLaunch {s : State} (h : Inv s) (l : Nat) (f : Launch → Launch) : Inv (s.modLaunch l f) := h.of_eq rfl rfl rfl rfl
theorem inv_modPart {s : State} (h : Inv s) (q : Nat) (f : Part → Part) : Inv (s.modPart q f) := h.of_eq rfl rfl rfl rfl
theorem inv_modOp {s : State} (h : Inv s) (i : Nat) (f : Op → Op) : Inv (s.modOp i f) := h.of_eq rfl rfl rfl rfl
theorem inv_eachPack {s : State} (h : Inv s) (ps : List Nat) (f : Nat → Pack → Pack) : Inv (eachPack s ps f) := by
  induction ps generalizing s with
  | nil => exact h
  | cons p ps ih => exact ih (inv_modPack h p (f p))
/-- A change of one element of a list keeps what holds of every element. -/
theorem modNth_forall {α : Type} {P : α → Prop} {l : List α} (h : ∀ x ∈ l, P x) (i : Nat) {f : α → α} (hf : ∀ x, P x → P (f x)) :
    ∀ x ∈ modNth l i f, P x := by
  intro x hx
  obtain ⟨j, hj, rfl⟩ := List.mem_iff_getElem.1 hx
  simp only [modNth] at hj ⊢
  rw [List.getElem_modify]
  rw [List.length_modify] at hj
  split
  · exact hf _ (h _ (List.getElem_mem hj))
  · exact h _ (List.getElem_mem hj)
theorem inv_modBlock {s : State} (h : Inv s) (b : Nat) {f : Block → Block} (hf : ∀ k, k.Wf → (f k).Wf) : Inv (s.modBlock b f) :=
  ⟨h.ram, h.l2, h.wbuf, modNth_forall h.blocks b hf⟩

/-! ### DRAM and outside memory -/

theorem inv_ramWrite {s : State} (h : Inv s) (a : Nat) (b : BitVec 8) : Inv (ramWrite s a b) :=
  ⟨mapWf_write _ _ _ _ h.ram, h.l2, h.wbuf, h.blocks⟩
theorem inv_ramWrites {s : State} (h : Inv s) (a : Nat) (bs : List (BitVec 8)) : Inv (ramWrites s a bs) := by
  induction bs generalizing s a with
  | nil => exact h
  | cons b bs ih => exact ih (inv_ramWrite h a b) (a + 1)
theorem inv_zeroBytes {s : State} (h : Inv s) (lo n : Nat) : Inv (zeroBytes s lo n) :=
  ⟨mapWf_filter _ _ _ h.ram, mapSorted_filter _ _ _ h.l2, h.wbuf, h.blocks⟩

/-! ### The caches -/

theorem inv_dropL1 {s : State} (h : Inv s) (w : Nat) : Inv (dropL1 s w) := h.of_eq rfl rfl rfl rfl
theorem inv_dropL1Core {s : State} (h : Inv s) (c w : Nat) : Inv (dropL1Core s c w) := h.of_eq rfl rfl rfl rfl
theorem inv_setOwner {s : State} (h : Inv s) (w : Nat) (o : Option Nat) : Inv (setOwner s w o) := h.of_eq rfl rfl rfl rfl
theorem inv_setPoison {s : State} (h : Inv s) (w : Nat) (b : Bool) : Inv (setPoison s w b) := h.of_eq rfl rfl rfl rfl
/-- A word of the L2 marked clean or taken out. -/
theorem inv_cleanWord {s : State} (h : Inv s) (w : Nat) (keep : Bool) :
    Inv { s with mem := { s.mem with l2 := if keep then mapPut s.mem.l2 w .clean else mapDel s.mem.l2 w } } :=
  h.withL2 (by
    split
    · exact mapSorted_put _ _ _ _ h.l2 (by simp)
    · exact mapSorted_del _ _ _ h.l2)
/-- A line written back leaves the canonical form (R82). -/
theorem inv_writeBack {s : State} (h : Inv s) (line : Nat) (keep : Bool) : Inv (writeBack s line keep) := by
  simp only [writeBack]
  refine inv_foldl (fun t i ht => ?_) _ h
  split
  · exact ht
  · refine inv_cleanWord ?_ _ keep
    split
    · split
      · exact ht
      · exact inv_ramWrites ht _ _
    · exact ht
theorem inv_evictLines {s : State} (h : Inv s) (ls : List Nat) : Inv (evictLines s ls) :=
  inv_foldl (fun _ l ht => inv_writeBack ht l false) _ h
theorem inv_dropL1Line {s : State} (h : Inv s) (c l : Nat) : Inv (dropL1Line s c l) := h.of_eq rfl rfl rfl rfl
theorem inv_l1Room {s : State} (h : Inv s) (c l : Nat) : Inv (l1Room s c l) := by
  simp only [l1Room]; split
  · exact inv_dropL1Line h c _
  · exact h
theorem inv_l2Room {s : State} (h : Inv s) (l : Nat) : Inv (l2Room s l) := by
  simp only [l2Room]; split
  · exact inv_writeBack h _ false
  · exact h
theorem inv_trimL1 {s : State} (h : Inv s) (c : Nat) : Inv (trimL1 s c) :=
  inv_foldl (fun t l ht => by
    dsimp only
    split
    · exact ht
    · exact inv_dropL1Line ht c l) _ h
theorem inv_trimL2 {s : State} (h : Inv s) : Inv (trimL2 s) :=
  inv_foldl (fun t l ht => by
    dsimp only
    split
    · exact ht
    · exact inv_writeBack ht l false) _ h
theorem inv_setSplit {s : State} (h : Inv s) (c n : Nat) : Inv (setSplit s c n) :=
  inv_trimL1 (s := { s with splits := mapPut s.splits c n }) (h.of_eq rfl rfl rfl rfl) c
theorem inv_l2Put {s : State} (h : Inv s) (w : Nat) (v : W32) : Inv (l2Put s w v) :=
  (inv_l2Room h (w / 32)).withL2 (mapSorted_put _ _ _ _ (inv_l2Room h (w / 32)).l2 (by simp))
theorem inv_l2Fill {s : State} (h : Inv s) (w : Nat) : Inv (l2Fill s w) := by
  simp only [l2Fill]; split
  · exact h
  · exact (inv_l2Room h (w / 32)).withL2 (mapSorted_put _ _ _ _ (inv_l2Room h (w / 32)).l2 (by simp))
theorem inv_l1Put {s : State} (h : Inv s) (c w : Nat) : Inv (l1Put s c w) := (inv_l1Room h c (w / 32)).of_eq rfl rfl rfl rfl
theorem inv_l2Byte {s : State} (h : Inv s) (ph : Nat) (b : BitVec 8) : Inv (l2Byte s ph b) := by
  simp only [l2Byte]; split
  · exact inv_ramWrite h ph b
  · exact inv_l2Put h _ _
theorem inv_acquireCore {s : State} (h : Inv s) (c : Nat) : Inv (acquireCore s c) := h.of_eq rfl rfl rfl rfl
theorem inv_fillL1 {s : State} (h : Inv s) (c : Nat) (alloc : Bool) (ws : List Nat) : Inv (fillL1 s c alloc ws) := by
  simp only [fillL1]; split
  · refine inv_foldl (fun t w ht => ?_) ws h
    split
    · exact ht
    · exact inv_l1Put (inv_l2Fill ht w) c w
  · exact h

/-! ### Held adds and registration -/

theorem inv_applyAdd {s : State} (h : Inv s) (u : AddU) : Inv (applyAdd s u) := by
  simp only [applyAdd]
  refine inv_foldl (fun t i ht => inv_l2Byte ht _ _) _ ?_
  split
  · exact inv_setPoison h _ _
  · exact h
theorem inv_applyBatch {s : State} (h : Inv s) (us : List AddU) : Inv (applyBatch s us) :=
  inv_foldl (fun _ u ht => inv_applyAdd ht u) _ h
theorem inv_closeWindow {s : State} (h : Inv s) (line : Nat) : Inv (closeWindow s line) := by
  simp only [closeWindow]; split
  · exact h
  · exact inv_foldl (fun _ u ht => inv_applyAdd ht u) _ (inv_applyBatch (s := { s with mem := { s.mem with windows := mapDel s.mem.windows line } }) (h.of_eq rfl rfl rfl rfl) _)
theorem inv_closeWindows {s : State} (h : Inv s) (ls : List Nat) : Inv (closeWindows s ls) :=
  inv_foldl (fun _ l ht => inv_closeWindow ht l) _ h
theorem inv_registerBytes {s : State} (h : Inv s) (o : Option Nat) (alloc : Bool) (bs : List (Nat × BitVec 8)) :
    Inv (registerBytes s o alloc bs) := by
  simp only [registerBytes]
  refine inv_foldl (fun t w ht => ?_) _ (inv_foldl (fun t e ht => inv_l2Byte ht _ _) _ (inv_closeWindows h _))
  have hp : Inv (if ((List.range 4).all fun i => bs.any fun e => e.1 == 4 * w + i) = true then setPoison t w false else t) := by
    split
    · exact inv_setPoison ht _ _
    · exact ht
  revert hp
  generalize (if ((List.range 4).all fun i => bs.any fun e => e.1 == 4 * w + i) = true then setPoison t w false else t) = q
  intro hp
  split
  · exact inv_setOwner hp _ _
  · refine inv_setOwner ?_ _ _
    split
    · exact inv_l1Put hp _ _
    · exact hp
theorem inv_engineWrite {s : State} (h : Inv s) (bs : List (Nat × BitVec 8)) : Inv (engineWrite s bs) :=
  inv_foldl (fun _ w ht => inv_dropL1 ht w) _ (inv_registerBytes h none false bs)

/-! ### The dies' writes -/

theorem inv_dieWrite {s : State} (h : Inv s) (ph : Nat) (bs : List (BitVec 8)) (bad : Bool) : Inv (dieWrite s ph bs bad) := by
  simp only [dieWrite]; split
  · exact inv_setPoison (inv_ramWrites h ph bs) _ _
  · split
    · exact inv_setPoison (inv_ramWrites h ph bs) _ _
    · exact inv_ramWrites h ph bs
theorem inv_dieAdd {s : State} (h : Inv s) (f : FFmt) (n ph : Nat) (v : FVal) (bad : Bool) : Inv (dieAdd s f n ph v bad) := by
  simp only [dieAdd]; split
  · exact inv_setPoison (inv_ramWrites h _ _) _ _
  · exact inv_ramWrites h _ _

/-! ### The scratchpad, the tiles and the weight buffer -/

theorem wf_scrWrite {b : Block} (h : b.Wf) (i off : Nat) (v : BitVec 8) : (scrWrite b i off v).Wf :=
  ⟨mapWf_write _ _ _ _ h.1, h.2⟩
theorem wf_scrWrites {b : Block} (h : b.Wf) (i off : Nat) (vs : List (BitVec 8)) : (scrWrites b i off vs).Wf := by
  induction vs generalizing b off with
  | nil => exact h
  | cons v vs ih => exact ih (wf_scrWrite h i off v) (off + 1)
/-- Only the scratchpad and the tiles of a block matter. -/
theorem Block.Wf.of_eq {b c : Block} (h : b.Wf) (hs : c.scratch = b.scratch) (ht : c.tiles = b.tiles) : c.Wf :=
  ⟨hs ▸ h.1, ht ▸ h.2⟩
theorem wf_setRow {t : Tile} (h : mapWf 0 t.el = true) (row : Nat) (vs : List W32) : mapWf 0 (t.setRow row vs).el = true :=
  foldl_keeps (P := fun m : NMap W32 => mapWf 0 m = true) (fun _ _ hm => mapWf_write _ _ _ _ hm) _ h
theorem inv_modTile {s : State} (h : Inv s) (p t : Nat) {f : Tile → Tile} (hf : ∀ tl, mapWf 0 tl.el = true → mapWf 0 (f tl).el = true) :
    Inv (s.modTile p t f) :=
  inv_modBlock h _ (fun _ hk => ⟨hk.1, modNth_forall (P := fun tl : Tile => mapWf 0 tl.el = true) hk.2 t hf⟩)

/-! ### Reading back -/

/-- The byte written is the byte read. -/
theorem ramRead_write_same {s : State} (h : Inv s) (a : Nat) (b : BitVec 8) : ramRead (ramWrite s a b) a = b :=
  mapRead_write_same _ _ _ _ h.ram
/-- Every other byte reads as before. -/
theorem ramRead_write_other {s : State} (h : Inv s) {a c : Nat} (b : BitVec 8) (hc : c ≠ a) : ramRead (ramWrite s a b) c = ramRead s c :=
  mapRead_write_other _ _ _ h.ram hc
/-- A write of several bytes leaves every byte outside them. -/
theorem ramRead_writes_other {s : State} (h : Inv s) (a c : Nat) (bs : List (BitVec 8)) (hc : c < a ∨ a + bs.length ≤ c) :
    ramRead (ramWrites s a bs) c = ramRead s c := by
  induction bs generalizing s a with
  | nil => rfl
  | cons b bs ih =>
    simp only [List.length_cons] at hc
    show ramRead (ramWrites (ramWrite s a b) (a + 1) bs) c = _
    rw [ih (inv_ramWrite h a b) (a + 1) (by omega), ramRead_write_other h b (by omega)]
/-- A scratchpad byte after a write of one. -/
theorem scrRead_write {b : Block} (h : b.Wf) (i off j o : Nat) (v : BitVec 8) :
    scrRead (scrWrite b i off v) j o = if scrKey j o = scrKey i off then v else scrRead b j o := by
  split
  · simp only [scrRead, scrWrite, ‹scrKey j o = scrKey i off›]
    exact mapRead_write_same _ _ _ _ h.1
  · exact mapRead_write_other _ _ _ h.1 ‹_›
/-- Reset memory is in canonical form. -/
theorem wf_reset : Memory.wf State.reset.mem.ram = true := rfl

end Sys2Proof.Machine
end

