-- ==== Sys2Proof/Laws/PerInstr.lean ====
section
/-!
SUPPORT. For every instruction: it is encoded in as many words as its row of the opcode table gives it, an event in none.
-/
namespace Sys2Proof.Laws.EncodedWords
open Sys2Proof

/-- The encoder writes as many words as the instruction has (R199). -/
def Statement (i : Instr) : Prop := (encode i).length = i.words

theorem bra : ∀ x1 x2 x3 x4, Statement (.bra x1 x2 x3 x4) := fun _ _ _ _ => rfl
theorem brc : ∀ x1 x2 x3 x4, Statement (.brc x1 x2 x3 x4) := fun _ _ _ _ => rfl
theorem br4 : ∀ x1 x2 x3 x4 x5 x6 x7 x8 x9 x10 x11, Statement (.br4 x1 x2 x3 x4 x5 x6 x7 x8 x9 x10 x11) := fun _ _ _ _ _ _ _ _ _ _ _ => rfl
theorem switch : ∀ x1 x2 x3 x4 x5 x6, Statement (.switch x1 x2 x3 x4 x5 x6) := fun _ _ _ _ _ _ => rfl
theorem call : ∀ x1 x2, Statement (.call x1 x2) := fun _ _ => rfl
theorem callReg : ∀ x1 x2, Statement (.callReg x1 x2) := fun _ _ => rfl
theorem ret : ∀ x1, Statement (.ret x1) := fun _ => rfl
theorem exit : ∀ x1, Statement (.exit x1) := fun _ => rfl
theorem nop : ∀ x1, Statement (.nop x1) := fun _ => rfl
theorem yield : ∀ x1, Statement (.yield x1) := fun _ => rfl
theorem slpt : ∀ x1 x2, Statement (.slpt x1 x2) := fun _ _ => rfl
theorem waitk : ∀ x1 x2 x3, Statement (.waitk x1 x2 x3) := fun _ _ _ => rfl
theorem trap : ∀ x1 x2, Statement (.trap x1 x2) := fun _ _ => rfl
theorem gset : ∀ x1 x2 x3 x4 x5, Statement (.gset x1 x2 x3 x4 x5) := fun _ _ _ _ _ => rfl
theorem region : ∀ x1, Statement (.region x1) := fun _ => rfl
theorem dsync : ∀ x1, Statement (.dsync x1) := fun _ => rfl
theorem srd : ∀ x1 x2 x3, Statement (.srd x1 x2 x3) := fun _ _ _ => rfl
theorem swr : ∀ x1 x2 x3, Statement (.swr x1 x2 x3) := fun _ _ _ => rfl
theorem rft : ∀ x1, Statement (.rft x1) := fun _ => rfl
theorem psrd : ∀ x1 x2 x3, Statement (.psrd x1 x2 x3) := fun _ _ _ => rfl
theorem pswr : ∀ x1 x2 x3, Statement (.pswr x1 x2 x3) := fun _ _ _ => rfl
theorem halt : ∀ x1, Statement (.halt x1) := fun _ => rfl
theorem snap : ∀ x1, Statement (.snap x1) := fun _ => rfl
theorem prft : ∀ x1, Statement (.prft x1) := fun _ => rfl
theorem sadd : ∀ x1 x2 x3 x4 x5 x6, Statement (.sadd x1 x2 x3 x4 x5 x6) := fun _ _ _ _ _ _ => rfl
theorem ssub : ∀ x1 x2 x3 x4 x5 x6, Statement (.ssub x1 x2 x3 x4 x5 x6) := fun _ _ _ _ _ _ => rfl
theorem smul : ∀ x1 x2 x3 x4 x5 x6, Statement (.smul x1 x2 x3 x4 x5 x6) := fun _ _ _ _ _ _ => rfl
theorem smulh : ∀ x1 x2 x3 x4 x5, Statement (.smulh x1 x2 x3 x4 x5) := fun _ _ _ _ _ => rfl
theorem smad : ∀ x1 x2 x3 x4 x5 x6 x7, Statement (.smad x1 x2 x3 x4 x5 x6 x7) := fun _ _ _ _ _ _ _ => rfl
theorem sand : ∀ x1 x2 x3 x4 x5, Statement (.sand x1 x2 x3 x4 x5) := fun _ _ _ _ _ => rfl
theorem sor : ∀ x1 x2 x3 x4 x5, Statement (.sor x1 x2 x3 x4 x5) := fun _ _ _ _ _ => rfl
theorem sxor : ∀ x1 x2 x3 x4 x5, Statement (.sxor x1 x2 x3 x4 x5) := fun _ _ _ _ _ => rfl
theorem sshl : ∀ x1 x2 x3 x4 x5, Statement (.sshl x1 x2 x3 x4 x5) := fun _ _ _ _ _ => rfl
theorem sshr : ∀ x1 x2 x3 x4 x5, Statement (.sshr x1 x2 x3 x4 x5) := fun _ _ _ _ _ => rfl
theorem ssar : ∀ x1 x2 x3 x4 x5, Statement (.ssar x1 x2 x3 x4 x5) := fun _ _ _ _ _ => rfl
theorem smin : ∀ x1 x2 x3 x4 x5, Statement (.smin x1 x2 x3 x4 x5) := fun _ _ _ _ _ => rfl
theorem smax : ∀ x1 x2 x3 x4 x5, Statement (.smax x1 x2 x3 x4 x5) := fun _ _ _ _ _ => rfl
theorem scmp : ∀ x1 x2 x3 x4 x5 x6, Statement (.scmp x1 x2 x3 x4 x5 x6) := fun _ _ _ _ _ _ => rfl
theorem ssel : ∀ x1 x2 x3 x4 x5 x6, Statement (.ssel x1 x2 x3 x4 x5 x6) := fun _ _ _ _ _ _ => rfl
theorem smov : ∀ x1 x2 x3 x4, Statement (.smov x1 x2 x3 x4) := fun _ _ _ _ => rfl
theorem smovi : ∀ x1 x2 x3, Statement (.smovi x1 x2 x3) := fun _ _ _ => rfl
theorem smovh : ∀ x1 x2 x3 x4, Statement (.smovh x1 x2 x3 x4) := fun _ _ _ _ => rfl
theorem spop : ∀ x1 x2 x3 x4, Statement (.spop x1 x2 x3 x4) := fun _ _ _ _ => rfl
theorem sclz : ∀ x1 x2 x3 x4, Statement (.sclz x1 x2 x3 x4) := fun _ _ _ _ => rfl
theorem sbfe : ∀ x1 x2 x3 x4 x5, Statement (.sbfe x1 x2 x3 x4 x5) := fun _ _ _ _ _ => rfl
theorem sbfi : ∀ x1 x2 x3 x4 x5 x6, Statement (.sbfi x1 x2 x3 x4 x5 x6) := fun _ _ _ _ _ _ => rfl
theorem sld : ∀ x1 x2 x3 x4 x5 x6, Statement (.sld x1 x2 x3 x4 x5 x6) := fun _ _ _ _ _ _ => rfl
theorem sst : ∀ x1 x2 x3 x4 x5, Statement (.sst x1 x2 x3 x4 x5) := fun _ _ _ _ _ => rfl
theorem pset : ∀ x1 x2 x3, Statement (.pset x1 x2 x3) := fun _ _ _ => rfl
theorem pand : ∀ x1 x2 x3 x4 x5 x6, Statement (.pand x1 x2 x3 x4 x5 x6) := fun _ _ _ _ _ _ => rfl
theorem por : ∀ x1 x2 x3 x4 x5 x6, Statement (.por x1 x2 x3 x4 x5 x6) := fun _ _ _ _ _ _ => rfl
theorem pxor : ∀ x1 x2 x3 x4 x5 x6, Statement (.pxor x1 x2 x3 x4 x5 x6) := fun _ _ _ _ _ _ => rfl
theorem pnot : ∀ x1 x2 x3, Statement (.pnot x1 x2 x3) := fun _ _ _ => rfl
theorem pmov : ∀ x1 x2 x3 x4, Statement (.pmov x1 x2 x3 x4) := fun _ _ _ _ => rfl
theorem pany : ∀ x1 x2 x3 x4, Statement (.pany x1 x2 x3 x4) := fun _ _ _ _ => rfl
theorem qcmp : ∀ x1 x2 x3 x4 x5 x6, Statement (.qcmp x1 x2 x3 x4 x5 x6) := fun _ _ _ _ _ _ => rfl
theorem qand : ∀ x1 x2 x3 x4 x5, Statement (.qand x1 x2 x3 x4 x5) := fun _ _ _ _ _ => rfl
theorem qor : ∀ x1 x2 x3 x4 x5, Statement (.qor x1 x2 x3 x4 x5) := fun _ _ _ _ _ => rfl
theorem qnot : ∀ x1 x2 x3, Statement (.qnot x1 x2 x3) := fun _ _ _ => rfl
theorem qblend : ∀ x1 x2 x3 x4 x5, Statement (.qblend x1 x2 x3 x4 x5) := fun _ _ _ _ _ => rfl
theorem qdraw : ∀ x1 x2 x3 x4, Statement (.qdraw x1 x2 x3 x4) := fun _ _ _ _ => rfl
theorem qgrad : ∀ x1 x2 x3, Statement (.qgrad x1 x2 x3) := fun _ _ _ => rfl
theorem qmov : ∀ x1 x2 x3 x4, Statement (.qmov x1 x2 x3 x4) := fun _ _ _ _ => rfl
theorem qlin : ∀ x1 x2 x3 x4 x5, Statement (.qlin x1 x2 x3 x4 x5) := fun _ _ _ _ _ => rfl
theorem vadd : ∀ x1 x2 x3 x4 x5 x6, Statement (.vadd x1 x2 x3 x4 x5 x6) := fun _ _ _ _ _ _ => rfl
theorem vsub : ∀ x1 x2 x3 x4 x5 x6, Statement (.vsub x1 x2 x3 x4 x5 x6) := fun _ _ _ _ _ _ => rfl
theorem vmul : ∀ x1 x2 x3 x4 x5 x6, Statement (.vmul x1 x2 x3 x4 x5 x6) := fun _ _ _ _ _ _ => rfl
theorem vmulh : ∀ x1 x2 x3 x4 x5, Statement (.vmulh x1 x2 x3 x4 x5) := fun _ _ _ _ _ => rfl
theorem vmad : ∀ x1 x2 x3 x4 x5 x6 x7, Statement (.vmad x1 x2 x3 x4 x5 x6 x7) := fun _ _ _ _ _ _ _ => rfl
theorem vand : ∀ x1 x2 x3 x4 x5, Statement (.vand x1 x2 x3 x4 x5) := fun _ _ _ _ _ => rfl
theorem vor : ∀ x1 x2 x3 x4 x5, Statement (.vor x1 x2 x3 x4 x5) := fun _ _ _ _ _ => rfl
theorem vxor : ∀ x1 x2 x3 x4 x5, Statement (.vxor x1 x2 x3 x4 x5) := fun _ _ _ _ _ => rfl
theorem vnot : ∀ x1 x2 x3 x4, Statement (.vnot x1 x2 x3 x4) := fun _ _ _ _ => rfl
theorem vshl : ∀ x1 x2 x3 x4 x5, Statement (.vshl x1 x2 x3 x4 x5) := fun _ _ _ _ _ => rfl
theorem vshr : ∀ x1 x2 x3 x4 x5, Statement (.vshr x1 x2 x3 x4 x5) := fun _ _ _ _ _ => rfl
theorem vsar : ∀ x1 x2 x3 x4 x5, Statement (.vsar x1 x2 x3 x4 x5) := fun _ _ _ _ _ => rfl
theorem vmin : ∀ x1 x2 x3 x4 x5, Statement (.vmin x1 x2 x3 x4 x5) := fun _ _ _ _ _ => rfl
theorem vmax : ∀ x1 x2 x3 x4 x5, Statement (.vmax x1 x2 x3 x4 x5) := fun _ _ _ _ _ => rfl
theorem vabs : ∀ x1 x2 x3 x4 x5, Statement (.vabs x1 x2 x3 x4 x5) := fun _ _ _ _ _ => rfl
theorem vcmp : ∀ x1 x2 x3 x4 x5 x6, Statement (.vcmp x1 x2 x3 x4 x5 x6) := fun _ _ _ _ _ _ => rfl
theorem vsel : ∀ x1 x2 x3 x4 x5 x6 x7, Statement (.vsel x1 x2 x3 x4 x5 x6 x7) := fun _ _ _ _ _ _ _ => rfl
theorem vmov : ∀ x1 x2 x3 x4, Statement (.vmov x1 x2 x3 x4) := fun _ _ _ _ => rfl
theorem vmovi : ∀ x1 x2 x3, Statement (.vmovi x1 x2 x3) := fun _ _ _ => rfl
theorem vpop : ∀ x1 x2 x3 x4, Statement (.vpop x1 x2 x3 x4) := fun _ _ _ _ => rfl
theorem vclz : ∀ x1 x2 x3 x4, Statement (.vclz x1 x2 x3 x4) := fun _ _ _ _ => rfl
theorem vbfe : ∀ x1 x2 x3 x4 x5, Statement (.vbfe x1 x2 x3 x4 x5) := fun _ _ _ _ _ => rfl
theorem vbfi : ∀ x1 x2 x3 x4 x5 x6, Statement (.vbfi x1 x2 x3 x4 x5 x6) := fun _ _ _ _ _ _ => rfl
theorem fadd : ∀ x1 x2 x3 x4 x5 x6 x7, Statement (.fadd x1 x2 x3 x4 x5 x6 x7) := fun _ _ _ _ _ _ _ => rfl
theorem fsub : ∀ x1 x2 x3 x4 x5 x6 x7, Statement (.fsub x1 x2 x3 x4 x5 x6 x7) := fun _ _ _ _ _ _ _ => rfl
theorem fmul : ∀ x1 x2 x3 x4 x5 x6 x7, Statement (.fmul x1 x2 x3 x4 x5 x6 x7) := fun _ _ _ _ _ _ _ => rfl
theorem ffma : ∀ x1 x2 x3 x4 x5 x6 x7 x8, Statement (.ffma x1 x2 x3 x4 x5 x6 x7 x8) := fun _ _ _ _ _ _ _ _ => rfl
theorem fmin : ∀ x1 x2 x3 x4, Statement (.fmin x1 x2 x3 x4) := fun _ _ _ _ => rfl
theorem fmax : ∀ x1 x2 x3 x4, Statement (.fmax x1 x2 x3 x4) := fun _ _ _ _ => rfl
theorem fcmp : ∀ x1 x2 x3 x4 x5, Statement (.fcmp x1 x2 x3 x4 x5) := fun _ _ _ _ _ => rfl
theorem frcp : ∀ x1 x2 x3, Statement (.frcp x1 x2 x3) := fun _ _ _ => rfl
theorem frsq : ∀ x1 x2 x3, Statement (.frsq x1 x2 x3) := fun _ _ _ => rfl
theorem fsqrt : ∀ x1 x2 x3, Statement (.fsqrt x1 x2 x3) := fun _ _ _ => rfl
theorem fexp2 : ∀ x1 x2 x3, Statement (.fexp2 x1 x2 x3) := fun _ _ _ => rfl
theorem flog2 : ∀ x1 x2 x3, Statement (.flog2 x1 x2 x3) := fun _ _ _ => rfl
theorem frnd : ∀ x1 x2 x3 x4, Statement (.frnd x1 x2 x3 x4) := fun _ _ _ _ => rfl
theorem fclass : ∀ x1 x2 x3, Statement (.fclass x1 x2 x3) := fun _ _ _ => rfl
theorem hfma2 : ∀ x1 x2 x3 x4 x5 x6 x7 x8 x9, Statement (.hfma2 x1 x2 x3 x4 x5 x6 x7 x8 x9) := fun _ _ _ _ _ _ _ _ _ => rfl
theorem cvt : ∀ x1 x2 x3 x4 x5 x6 x7 x8 x9, Statement (.cvt x1 x2 x3 x4 x5 x6 x7 x8 x9) := fun _ _ _ _ _ _ _ _ _ => rfl
theorem cvtpk : ∀ x1 x2 x3 x4 x5 x6 x7 x8, Statement (.cvtpk x1 x2 x3 x4 x5 x6 x7 x8) := fun _ _ _ _ _ _ _ _ => rfl
theorem cvtmx : ∀ x1 x2 x3 x4 x5 x6 x7 x8, Statement (.cvtmx x1 x2 x3 x4 x5 x6 x7 x8) := fun _ _ _ _ _ _ _ _ => rfl
theorem cvtl6 : ∀ x1 x2 x3 x4 x5 x6 x7 x8, Statement (.cvtl6 x1 x2 x3 x4 x5 x6 x7 x8) := fun _ _ _ _ _ _ _ _ => rfl
theorem vshf : ∀ x1 x2 x3 x4 x5, Statement (.vshf x1 x2 x3 x4 x5) := fun _ _ _ _ _ => rfl
theorem vbcst : ∀ x1 x2 x3 x4, Statement (.vbcst x1 x2 x3 x4) := fun _ _ _ _ => rfl
theorem vred : ∀ x1 x2 x3 x4 x5 x6, Statement (.vred x1 x2 x3 x4 x5 x6) := fun _ _ _ _ _ _ => rfl
theorem vscan : ∀ x1 x2 x3 x4 x5 x6 x7, Statement (.vscan x1 x2 x3 x4 x5 x6 x7) := fun _ _ _ _ _ _ _ => rfl
theorem vbal : ∀ x1 x2 x3 x4 x5, Statement (.vbal x1 x2 x3 x4 x5) := fun _ _ _ _ _ => rfl
theorem vrdl : ∀ x1 x2 x3 x4, Statement (.vrdl x1 x2 x3 x4) := fun _ _ _ _ => rfl
theorem vwrl : ∀ x1 x2 x3 x4, Statement (.vwrl x1 x2 x3 x4) := fun _ _ _ _ => rfl
theorem ld : ∀ x1 x2 x3 x4 x5 x6, Statement (.ld x1 x2 x3 x4 x5 x6) := fun _ _ _ _ _ _ => rfl
theorem st : ∀ x1 x2 x3 x4 x5 x6, Statement (.st x1 x2 x3 x4 x5 x6) := fun _ _ _ _ _ _ => rfl
theorem lds : ∀ x1 x2 x3 x4, Statement (.lds x1 x2 x3 x4) := fun _ _ _ _ => rfl
theorem sts : ∀ x1 x2 x3 x4 x5, Statement (.sts x1 x2 x3 x4 x5) := fun _ _ _ _ _ => rfl
theorem atom : ∀ x1 x2 x3 x4 x5, Statement (.atom x1 x2 x3 x4 x5) := fun _ _ _ _ _ => rfl
theorem acas : ∀ x1 x2 x3 x4, Statement (.acas x1 x2 x3 x4) := fun _ _ _ _ => rfl
theorem fatom : ∀ x1 x2 x3 x4 x5, Statement (.fatom x1 x2 x3 x4 x5) := fun _ _ _ _ _ => rfl
theorem acq : ∀ x1, Statement (.acq x1) := fun _ => rfl
theorem rel : ∀ x1, Statement (.rel x1) := fun _ => rfl
theorem cmo : ∀ x1 x2 x3 x4 x5, Statement (.cmo x1 x2 x3 x4 x5) := fun _ _ _ _ _ => rfl
theorem cmoBmp : ∀ x1 x2 x3 x4, Statement (.cmoBmp x1 x2 x3 x4) := fun _ _ _ _ => rfl
theorem pref : ∀ x1 x2 x3, Statement (.pref x1 x2 x3) := fun _ _ _ => rfl
theorem gdld : ∀ x1 x2 x3, Statement (.gdld x1 x2 x3) := fun _ _ _ => rfl
theorem ild : ∀ x1 x2 x3 x4 x5, Statement (.ild x1 x2 x3 x4 x5) := fun _ _ _ _ _ => rfl
theorem ildg : ∀ x1 x2 x3 x4 x5, Statement (.ildg x1 x2 x3 x4 x5) := fun _ _ _ _ _ => rfl
theorem ispl : ∀ x1 x2 x3 x4 x5, Statement (.ispl x1 x2 x3 x4 x5) := fun _ _ _ _ _ => rfl
theorem hins : ∀ x1 x2 x3 x4 x5, Statement (.hins x1 x2 x3 x4 x5) := fun _ _ _ _ _ => rfl
theorem hfind : ∀ x1 x2 x3 x4, Statement (.hfind x1 x2 x3 x4) := fun _ _ _ _ => rfl
theorem nbr : ∀ x1 x2 x3 x4, Statement (.nbr x1 x2 x3 x4) := fun _ _ _ _ => rfl
theorem hframe : ∀ x1 x2 x3, Statement (.hframe x1 x2 x3) := fun _ _ _ => rfl
theorem cpy : ∀ x1 x2 x3 x4 x5 x6 x7 x8 x9 x10 x11, Statement (.cpy x1 x2 x3 x4 x5 x6 x7 x8 x9 x10 x11) := fun _ _ _ _ _ _ _ _ _ _ _ => rfl
theorem cpyr : ∀ x1 x2 x3 x4 x5 x6 x7 x8 x9 x10 x11, Statement (.cpyr x1 x2 x3 x4 x5 x6 x7 x8 x9 x10 x11) := fun _ _ _ _ _ _ _ _ _ _ _ => rfl
theorem binit : ∀ x1 x2 x3, Statement (.binit x1 x2 x3) := fun _ _ _ => rfl
theorem barr : ∀ x1 x2, Statement (.barr x1 x2) := fun _ _ => rfl
theorem bwait : ∀ x1 x2, Statement (.bwait x1 x2) := fun _ _ => rfl
theorem btest : ∀ x1 x2 x3, Statement (.btest x1 x2 x3) := fun _ _ _ => rfl
theorem bjoin : ∀ x1 x2, Statement (.bjoin x1 x2) := fun _ _ => rfl
theorem bleave : ∀ x1 x2, Statement (.bleave x1 x2) := fun _ _ => rfl
theorem mma : ∀ x1 x2 x3 x4 x5 x6 x7 x8 x9 x10, Statement (.mma x1 x2 x3 x4 x5 x6 x7 x8 x9 x10) := fun _ _ _ _ _ _ _ _ _ _ => rfl
theorem mzero : ∀ x1 x2, Statement (.mzero x1 x2) := fun _ _ => rfl
theorem mlda : ∀ x1 x2 x3 x4 x5, Statement (.mlda x1 x2 x3 x4 x5) := fun _ _ _ _ _ => rfl
theorem msta : ∀ x1 x2 x3 x4 x5 x6 x7, Statement (.msta x1 x2 x3 x4 x5 x6 x7) := fun _ _ _ _ _ _ _ => rfl
theorem wbld : ∀ x1 x2 x3, Statement (.wbld x1 x2 x3) := fun _ _ _ => rfl
theorem msec : ∀ x1 x2, Statement (.msec x1 x2) := fun _ _ => rfl
theorem mend : ∀ x1, Statement (.mend x1) := fun _ => rfl
theorem xprog : ∀ x1 x2 x3, Statement (.xprog x1 x2 x3) := fun _ _ _ => rfl
theorem xmv : ∀ x1 x2 x3 x4, Statement (.xmv x1 x2 x3 x4) := fun _ _ _ _ => rfl
theorem xcal : ∀ x1 x2 x3, Statement (.xcal x1 x2 x3) := fun _ _ _ => rfl
theorem xref : ∀ x1 x2 x3 x4, Statement (.xref x1 x2 x3 x4) := fun _ _ _ _ => rfl
theorem accept : ∀ x1 x2 x3, Statement (.accept x1 x2 x3) := fun _ _ _ => rfl
theorem tbind : ∀ x1 x2 x3 x4 x5, Statement (.tbind x1 x2 x3 x4 x5) := fun _ _ _ _ _ => rfl
theorem tq : ∀ x1 x2 x3 x4 x5, Statement (.tq x1 x2 x3 x4 x5) := fun _ _ _ _ _ => rfl
theorem tqm : ∀ x1 x2 x3 x4 x5 x6, Statement (.tqm x1 x2 x3 x4 x5 x6) := fun _ _ _ _ _ _ => rfl
theorem nlaunch : ∀ x1 x2 x3 x4 x5 x6, Statement (.nlaunch x1 x2 x3 x4 x5 x6) := fun _ _ _ _ _ _ => rfl
theorem post : ∀ x1 x2 x3, Statement (.post x1 x2 x3) := fun _ _ _ => rfl
theorem clauseHeader : ∀ x1 x2, Statement (.clauseHeader x1 x2) := fun _ _ => rfl
theorem rotationBlockTimeout : ∀ x1 x2, Statement (.rotationBlockTimeout x1 x2) := fun _ _ => rfl
theorem forcedIssue : ∀ x1, Statement (.forcedIssue x1) := fun _ => rfl
theorem promiseCheck : ∀ x1, Statement (.promiseCheck x1) := fun _ => rfl
theorem slptWake : ∀ x1 x2, Statement (.slptWake x1 x2) := fun _ _ => rfl
theorem loadDataReturn : ∀ x1 x2, Statement (.loadDataReturn x1 x2) := fun _ _ => rfl
theorem storeRegister : ∀ x1 x2 x3, Statement (.storeRegister x1 x2 x3) := fun _ _ _ => rfl
theorem atomicPerform : ∀ x1 x2, Statement (.atomicPerform x1 x2) := fun _ _ => rfl
theorem mshrGrant : ∀ x1 x2, Statement (.mshrGrant x1 x2) := fun _ _ => rfl
theorem mshrAgeHold : ∀ x1, Statement (.mshrAgeHold x1) := fun _ => rfl
theorem cmoComplete : ∀ x1, Statement (.cmoComplete x1) := fun _ => rfl
theorem gdldDataArrival : ∀ x1, Statement (.gdldDataArrival x1) := fun _ => rfl
theorem splatAddArrival : ∀ x1 x2, Statement (.splatAddArrival x1 x2) := fun _ _ => rfl
theorem hinsBucketStep : ∀ x1 x2, Statement (.hinsBucketStep x1 x2) := fun _ _ => rfl
theorem hframeApply : ∀ x1, Statement (.hframeApply x1) := fun _ => rfl
theorem copyIssueProbe : ∀ x1 x2, Statement (.copyIssueProbe x1 x2) := fun _ _ => rfl
theorem copyComplete : ∀ x1, Statement (.copyComplete x1) := fun _ => rfl
theorem guardSlotRead : ∀ x1, Statement (.guardSlotRead x1) := fun _ => rfl
theorem cpyrPartApply : ∀ x1 x2, Statement (.cpyrPartApply x1 x2) := fun _ _ => rfl
theorem matrixPassGrant : ∀ x1, Statement (.matrixPassGrant x1) := fun _ => rfl
theorem matrixEntryAged : ∀ x1, Statement (.matrixEntryAged x1) := fun _ => rfl
theorem mmaComplete : ∀ x1, Statement (.mmaComplete x1) := fun _ => rfl
theorem tileRowComplete : ∀ x1, Statement (.tileRowComplete x1) := fun _ => rfl
theorem wbldComplete : ∀ x1, Statement (.wbldComplete x1) := fun _ => rfl
theorem xprogDone : ∀ x1, Statement (.xprogDone x1) := fun _ => rfl
theorem xmvPassDone : ∀ x1, Statement (.xmvPassDone x1) := fun _ => rfl
theorem xcalDone : ∀ x1, Statement (.xcalDone x1) := fun _ => rfl
theorem xrefDone : ∀ x1, Statement (.xrefDone x1) := fun _ => rfl
theorem tbindCopyDone : ∀ x1, Statement (.tbindCopyDone x1) := fun _ => rfl
theorem tqDone : ∀ x1, Statement (.tqDone x1) := fun _ => rfl
theorem detSyncEffect : ∀ x1 x2, Statement (.detSyncEffect x1 x2) := fun _ _ => rfl
theorem qtailWrite : ∀ x1 x2, Statement (.qtailWrite x1 x2) := fun _ _ => rfl
theorem commandNop : ∀ x1, Statement (.commandNop x1) := fun _ => rfl
theorem commandLaunch : ∀ x1, Statement (.commandLaunch x1) := fun _ => rfl
theorem commandReplay : ∀ x1, Statement (.commandReplay x1) := fun _ => rfl
theorem queueStarvationTimeout : ∀ x1, Statement (.queueStarvationTimeout x1) := fun _ => rfl
theorem windowFreeAdmit : ∀ x1, Statement (.windowFreeAdmit x1) := fun _ => rfl
theorem blockPlace : ∀ x1 x2, Statement (.blockPlace x1 x2) := fun _ _ => rfl
theorem caravanPlace : ∀ x1 x2, Statement (.caravanPlace x1 x2) := fun _ _ => rfl
theorem blockWaitTimeout : ∀ x1 x2, Statement (.blockWaitTimeout x1 x2) := fun _ _ => rfl
theorem caravanWaitTimeout : ∀ x1 x2, Statement (.caravanWaitTimeout x1 x2) := fun _ _ => rfl
theorem nodeKernel : ∀ x1 x2, Statement (.nodeKernel x1 x2) := fun _ _ => rfl
theorem nodeCellar : ∀ x1 x2, Statement (.nodeCellar x1 x2) := fun _ _ => rfl
theorem nodeCopy : ∀ x1 x2, Statement (.nodeCopy x1 x2) := fun _ _ => rfl
theorem nodeHostwait : ∀ x1 x2, Statement (.nodeHostwait x1 x2) := fun _ _ => rfl
theorem nodeCond : ∀ x1 x2, Statement (.nodeCond x1 x2) := fun _ _ => rfl
theorem nodeEvent : ∀ x1 x2, Statement (.nodeEvent x1 x2) := fun _ _ => rfl
theorem nodeComplete : ∀ x1 x2, Statement (.nodeComplete x1 x2) := fun _ _ => rfl
theorem rheadWrite : ∀ x1 x2, Statement (.rheadWrite x1 x2) := fun _ _ => rfl
theorem eventRecordWrite : ∀ x1, Statement (.eventRecordWrite x1) := fun _ => rfl
theorem ringCoalesceTimeout : ∀ x1, Statement (.ringCoalesceTimeout x1) := fun _ => rfl
theorem pctlPreWrite : ∀ x1, Statement (.pctlPreWrite x1) := fun _ => rfl
theorem partitionHalted : ∀ x1, Statement (.partitionHalted x1) := fun _ => rfl
theorem shadowSaveDone : ∀ x1, Statement (.shadowSaveDone x1) := fun _ => rfl
theorem drainDone : ∀ x1, Statement (.drainDone x1) := fun _ => rfl
theorem pctlResumeWrite : ∀ x1, Statement (.pctlResumeWrite x1) := fun _ => rfl
theorem restoreDone : ∀ x1, Statement (.restoreDone x1) := fun _ => rfl
theorem xareleaseWrite : ∀ x1, Statement (.xareleaseWrite x1) := fun _ => rfl
theorem shadowwaysWrite : ∀ x1, Statement (.shadowwaysWrite x1) := fun _ => rfl
theorem cmapWrite : ∀ x1, Statement (.cmapWrite x1) := fun _ => rfl
theorem xlstatRfailClear : ∀ x1, Statement (.xlstatRfailClear x1) := fun _ => rfl
theorem registerWrite : ∀ x1 x2, Statement (.registerWrite x1 x2) := fun _ _ => rfl
theorem atsTranslationCompletion : ∀ x1 x2 x3 x4 x5 x6 x7, Statement (.atsTranslationCompletion x1 x2 x3 x4 x5 x6 x7) := fun _ _ _ _ _ _ _ => rfl
theorem atsCompletionTimeout : ∀ x1 x2, Statement (.atsCompletionTimeout x1 x2) := fun _ _ => rfl
theorem pageRequestGroupSend : Statement (.pageRequestGroupSend) := rfl
theorem prgResponseSuccess : ∀ x1, Statement (.prgResponseSuccess x1) := fun _ => rfl
theorem prgResponseInvalidRequest : ∀ x1, Statement (.prgResponseInvalidRequest x1) := fun _ => rfl
theorem prgResponseFailure : ∀ x1, Statement (.prgResponseFailure x1) := fun _ => rfl
theorem atsInvalidateRequest : ∀ x1 x2 x3, Statement (.atsInvalidateRequest x1 x2 x3) := fun _ _ _ => rfl
theorem regionRequeue : ∀ x1, Statement (.regionRequeue x1) := fun _ => rfl
theorem hostAtomicopCompletion : ∀ x1 x2 x3, Statement (.hostAtomicopCompletion x1 x2 x3) := fun _ _ _ => rfl
theorem hostFlushReadCompletion : ∀ x1, Statement (.hostFlushReadCompletion x1) := fun _ => rfl
theorem peerAcknowledge : ∀ x1, Statement (.peerAcknowledge x1) := fun _ => rfl
theorem hostBar2Read : ∀ x1 x2, Statement (.hostBar2Read x1 x2) := fun _ _ => rfl
theorem hostBar2Write : ∀ x1 x2, Statement (.hostBar2Write x1 x2) := fun _ _ => rfl
theorem peerAccessIn : ∀ x1, Statement (.peerAccessIn x1) := fun _ => rfl
theorem cellarJobStart : ∀ x1, Statement (.cellarJobStart x1) := fun _ => rfl
theorem cellarDot : ∀ x1, Statement (.cellarDot x1) := fun _ => rfl
theorem cellarSegsum : ∀ x1, Statement (.cellarSegsum x1) := fun _ => rfl
theorem cellarAdamw : ∀ x1, Statement (.cellarAdamw x1) := fun _ => rfl
theorem cellarRapply : ∀ x1 x2, Statement (.cellarRapply x1 x2) := fun _ _ => rfl
theorem cellarFill : ∀ x1, Statement (.cellarFill x1) := fun _ => rfl
theorem cellarJobComplete : ∀ x1, Statement (.cellarJobComplete x1) := fun _ => rfl
theorem sequenceEntryFree : ∀ x1, Statement (.sequenceEntryFree x1) := fun _ => rfl
theorem powerOnReset : Statement (.powerOnReset) := rfl
theorem attcmdWrite : ∀ x1, Statement (.attcmdWrite x1) := fun _ => rfl
theorem attestationReport : Statement (.attestationReport) := rfl
theorem linkPortStateChange : ∀ x1 x2, Statement (.linkPortStateChange x1 x2) := fun _ _ => rfl
theorem linkFlitReplay : ∀ x1, Statement (.linkFlitReplay x1) := fun _ => rfl
theorem uncorrectableError : ∀ x1, Statement (.uncorrectableError x1) := fun _ => rfl
theorem correctableError : Statement (.correctableError) := rfl
theorem clusterFailure : ∀ x1, Statement (.clusterFailure x1) := fun _ => rfl
theorem cellarUnitFailure : ∀ x1, Statement (.cellarUnitFailure x1) := fun _ => rfl
theorem dramRowFailure : ∀ x1, Statement (.dramRowFailure x1) := fun _ => rfl
theorem l2WayFailure : Statement (.l2WayFailure) := rfl
theorem snapInEdge : Statement (.snapInEdge) := rfl
theorem snaptrigWrite : ∀ x1, Statement (.snaptrigWrite x1) := fun _ => rfl
theorem snapctlFullClear : Statement (.snapctlFullClear) := rfl
theorem snapOutRelease : Statement (.snapOutRelease) := rfl
theorem plimitWrite : ∀ x1, Statement (.plimitWrite x1) := fun _ => rfl
theorem throttleStepDown : ∀ x1, Statement (.throttleStepDown x1) := fun _ => rfl
theorem throttleRestore : ∀ x1, Statement (.throttleRestore x1) := fun _ => rfl
theorem thermalTrip : Statement (.thermalTrip) := rfl
theorem hardwarePrefetch : ∀ x1 x2 x3, Statement (.hardwarePrefetch x1 x2 x3) := fun _ _ _ => rfl
theorem mergeTableAgeHold : Statement (.mergeTableAgeHold) := rfl
theorem hostPeerLoadCompletion : ∀ x1, Statement (.hostPeerLoadCompletion x1) := fun _ => rfl

end Sys2Proof.Laws.EncodedWords
end

