-- ==== Sys2Proof/Tests/Slice0.lean ====
section
/-!
SUPPORT. The model's own tests: words written out from the encoding tables of the spec, an ill-formed term for each check of
`WellFormed`, and for each statement a concrete state that meets its hypotheses.
-/
namespace Sys2Proof.Tests
set_option Elab.async false
open Sys2Proof Sys2Proof.Machine

/-! ### Decoding: words written out field by field from R193 to R200 and the instructions' entries -/

/-- R196, R209: OP 0x001, KIND 0, CND !P1, TGT 4, RCV 6. -/
theorem test_decode_bra : decode (0x001#10 ++ 0#4 ++ 0#3 ++ 1#1 ++ 1#3 ++ 4#24 ++ 6#15 ++ 7#4) 0 = some (.bra 7 9 4 6) := by decide
/-- R197: KIND 3 is GEZ, CND names S5. -/
theorem test_decode_brc : decode (0x002#10 ++ 3#4 ++ 5#7 ++ 0xFFFFFF#24 ++ 0#15 ++ 7#4) 0 = some (.brc 7 .gez 5 0xFFFFFF) := by decide
/-- R197, R199: two pairs; pair 1 is !P2 at offset 9 in bits [19:0] of the second word. -/
theorem test_decode_br4 : decode (0x003#10 ++ 1#4 ++ 0#3 ++ 1#4 ++ 8#24 ++ 2#15 ++ 7#4) (0#44 ++ 1#1 ++ 2#3 ++ 9#16) =
    some (.br4 7 1 1 8 2 10 9 0 0 0 0) := by decide
/-- R199: VAL v3, NCASE 1, KB 100, RCV 5; TOFF0 2 and TOFF1 4. -/
theorem test_decode_switch : decode (0x004#10 ++ 3#9 ++ 1#3 ++ 100#16 ++ 0#7 ++ 5#15 ++ 7#4) 0x0402 = some (.switch 7 3 1 100 5 0x0402) := by decide
/-- R197: KIND 1 is the register form. -/
theorem test_decode_callReg : decode (0x005#10 ++ 1#4 ++ 9#7 ++ 0#24 ++ 0#15 ++ 7#4) 0 = some (.callReg 7 9) := by decide
/-- R215: OP 0x007 and nothing else. -/
theorem test_decode_exit : decode (0x007#10 ++ 0#50 ++ 7#4) 0 = some (.exit 7) := by decide
/-- R219: the spec's own word of WAITK K.CPY, 1. -/
theorem test_decode_waitk : decode 0x02C0000000001027 0 = some (.waitk 7 .cpy 1) := by decide
/-- R307: SRD s5, CLK. -/
theorem test_decode_srd : decode (0x010#10 ++ 389#9 ++ 0#9 ++ 0#32 ++ 7#4) 0 = some (.srd 7 389 0) := by decide
/-- R381: the spec's own word of PSRD s5, PCAUSE. -/
theorem test_decode_psrd : decode 0x1030A00000000007 0 = some (.psrd 7 389 0) := by decide
/-- R385: the spec's own word of PRFT. -/
theorem test_decode_prft : decode 0x1100000000000007 0 = some (.prft 7) := by decide
/-- R224: SADD.N32.SAT s5, s2, 15: TYPE 6 in [17:15], SAT in [14], constant 502. -/
theorem test_decode_sadd : decode (0x080#10 ++ 389#9 ++ 386#9 ++ 502#9 ++ 0#9 ++ 6#3 ++ 1#1 ++ 0#10 ++ 7#4) 0 =
    some (.sadd 7 .n32 true 389 386 502) := by decide
/-- R224: SCMP.LT.I64: REL 2 in [13:11]. -/
theorem test_decode_scmp : decode (0x08D#10 ++ 389#9 ++ 386#9 ++ 387#9 ++ 0#9 ++ 3#3 ++ 0#1 ++ 2#3 ++ 0#7 ++ 7#4) 0 =
    some (.scmp 7 .i64 .lt 389 386 387) := by decide
/-- R225: SMOVI s0, -1. -/
theorem test_decode_smovi : decode (0x090#10 ++ 384#9 ++ 0#9 ++ 0xFFFFFFFF#32 ++ 7#4) 0 = some (.smovi 7 384 0xFFFFFFFF) := by decide
/-- R229: PAND p1, !p2, p3. -/
theorem test_decode_pand : decode (0x101#10 ++ 1#9 ++ 2#9 ++ 3#9 ++ 0#9 ++ 0#12 ++ 1#1 ++ 0#1 ++ 7#4) 0 = some (.pand 7 true false 1 2 3) := by decide
/-- R236: QLIN.OR q2, q1, 0x81: op 2 in [13:12], the mask in [11:4]. -/
theorem test_decode_qlin : decode (0x118#10 ++ 2#9 ++ 1#9 ++ 0#9 ++ 0#9 ++ 0#4 ++ 2#2 ++ 0x81#8 ++ 7#4) 0 = some (.qlin 7 .or 0x81 2 1) := by decide
/-- R240: VADD.I16.SAT v3, v4, v5. -/
theorem test_decode_vadd : decode (0x140#10 ++ 3#9 ++ 4#9 ++ 5#9 ++ 0#9 ++ 1#3 ++ 1#1 ++ 0#10 ++ 7#4) 0 = some (.vadd 7 .i16 true 3 4 5) := by decide
/-- R242: VSEL v3, v4, v5, !p6. -/
theorem test_decode_vsel : decode (0x150#10 ++ 3#9 ++ 4#9 ++ 5#9 ++ 6#9 ++ 2#3 ++ 0#9 ++ 1#1 ++ 0#1 ++ 7#4) 0 =
    some (.vsel 7 .i32 true 3 4 5 6) := by decide
/-- R245: FFMA.SR v1, v2, v3, v4 with STREAM 9 in [13:6]. -/
theorem test_decode_ffma : decode (0x203#10 ++ 1#9 ++ 2#9 ++ 3#9 ++ 4#9 ++ 4#3 ++ 0#1 ++ 9#8 ++ 0#2 ++ 7#4) 0 =
    some (.ffma 7 .sr false 9 1 2 3 4) := by decide
/-- R265: VRDL s5, v4, s2. -/
theorem test_decode_vrdl : decode (0x2C5#10 ++ 389#9 ++ 4#9 ++ 386#9 ++ 0#9 ++ 0#14 ++ 7#4) 0 = some (.vrdl 7 389 4 386) := by decide
/-- R195, R266: LD.W16.GLB v8, [s2 + v3 + 32]: WIDTH 4, POLICY 1. -/
theorem test_decode_ld : decode (0x300#10 ++ 8#9 ++ 2#7 ++ 3#9 ++ 32#16 ++ 4#3 ++ 1#2 ++ 0#4 ++ 7#4) 0 = some (.ld 7 false .w16 .glb 8 ⟨2, 3, 32⟩) := by decide
/-- R277: the spec's own word of CMO.BMP.L2 s6, [s8+0]. -/
theorem test_decode_cmoBmp : decode 0xC270C23FE00000D7 0 = some (.cmoBmp 7 .l2 390 ⟨8, 511, 0⟩) := by decide
/-- R280: ILD v8, v4 through D3. -/
theorem test_decode_ild : decode (0x381#10 ++ 8#9 ++ 4#9 ++ 3#9 ++ 0#9 ++ 0#14 ++ 7#4) 0 = some (.ild 7 .desc 8 4 3) := by decide
/-- R199: CPYR.BF16.G s7, [s1 + 64], origin v10, extent v16, Z in s3, B5, G2: RFMT 2. -/
theorem test_decode_cpyr : decode (0x3C1#10 ++ 391#9 ++ 1#7 ++ 511#9 ++ 64#16 ++ 0#9 ++ 7#4)
    (10#9 ++ 16#9 ++ 3#7 ++ 0#9 ++ 5#4 ++ 1#1 ++ 2#3 ++ 0#1 ++ 0#1 ++ 2#2 ++ 0#18) =
    some (.cpyr 7 .bf16 false true 2 5 3 10 16 391 ⟨1, 511, 64⟩) := by decide
/-- R289: BARR b4: A names the barrier. -/
theorem test_decode_barr : decode (0x3C3#10 ++ 0#9 ++ 4#9 ++ 0#9 ++ 0#9 ++ 0#14 ++ 7#4) 0 = some (.barr 7 4) := by decide
/-- R199, R293: MMA a1 with the formats in s6 and s7, ORDA set: ZA, PA, ZB, PB in the second word. -/
theorem test_decode_mma : decode (0x3E0#10 ++ 1#9 ++ 390#9 ++ 0#9 ++ 0#9 ++ 0#1 ++ 1#1 ++ 0#1 ++ 0#11 ++ 7#4)
    (4096#19 ++ 128#12 ++ 8192#20 ++ 64#12 ++ 0#1) = some (.mma 7 false true false 1 390 4096 128 8192 64) := by decide
/-- R295: the spec's own word of MZERO a2. -/
theorem test_decode_mzero : decode 0xF840400000000007 0 = some (.mzero 7 2) := by decide
/-- R301: the spec's own word of XMV v64, v56, s30. -/
theorem test_decode_xmv : decode 0xFC48038CF0000007 0 = some (.xmv 7 64 56 414) := by decide
/-- R302: the spec's own word of ACCEPT v60, v32. -/
theorem test_decode_accept : decode 0xFD07820000000007 0 = some (.accept 7 60 32) := by decide
/-- R304: TQ v8, v9, t3, 1: WIN in [5:4]. -/
theorem test_decode_tq : decode (0x3F9#10 ++ 8#9 ++ 9#9 ++ 3#9 ++ 0#9 ++ 0#12 ++ 1#2 ++ 7#4) 0 = some (.tq 7 1 8 9 3) := by decide
/-- R199, R305: NLAUNCH [s4] arriving at B2: BEN [63], BAR [62:59]. -/
theorem test_decode_nlaunch : decode (0x3FC#10 ++ 0#9 ++ 4#7 ++ 511#9 ++ 0#16 ++ 0#9 ++ 7#4) (1#1 ++ 2#4 ++ 0#59) =
    some (.nlaunch 7 true false 2 0 ⟨4, 511, 0⟩) := by decide
/-- R188, R201: opcode 0 and the unassigned opcodes at the ends of the map's gaps. -/
theorem test_decode_unassigned : ∀ op ∈ [0x000#10, 0x013, 0x03F, 0x045, 0x07F, 0x098, 0x0FF, 0x107, 0x119, 0x157, 0x20F, 0x284, 0x2C7, 0x30B,
    0x388, 0x3C8, 0x3E7, 0x3F5, 0x3FB, 0x3FE, 0x3FF], decode (op ++ 0#50 ++ 7#4) 0 = none := by decide +kernel
/-- The table's numbering: the second word stands above the first. -/
theorem test_tableWord : decodeTableWord 128 (0x00C00000000000C7 + 2 ^ 64 * 0) = decode 0x00C00000000000C7 0 := by decide

/-! ### Ill-formed terms: one for each check (R191, R195, R197 to R199) -/

theorem test_ill_vdst : (Instr.vadd 7 .i32 false 384 4 5).wellFormed = false := by decide
theorem test_ill_vrng : (Instr.switch 7 384 0 0 0 0).wellFormed = false := by decide
theorem test_ill_ssrc : (Instr.sadd 7 .i64 false 389 383 387).wellFormed = false := by decide
theorem test_ill_sdst : (Instr.sadd 7 .i64 false 480 386 387).wellFormed = false := by decide
theorem test_ill_spair : (Instr.mma 7 false false false 1 479 0 0 0 0).wellFormed = false := by decide
theorem test_ill_psrc : (Instr.pand 7 false false 1 8 3).wellFormed = false := by decide
theorem test_ill_pdst : (Instr.pand 7 false false 7 2 3).wellFormed = false := by decide
theorem test_ill_qreg : (Instr.qnot 7 8 1).wellFormed = false := by decide
theorem test_ill_gslot : (Instr.gset 7 false false 8 1).wellFormed = false := by decide
theorem test_ill_tile : (Instr.mzero 7 8).wellFormed = false := by decide
theorem test_ill_bar : (Instr.barr 7 16).wellFormed = false := by decide
theorem test_ill_tslot : (Instr.tq 7 0 8 9 16).wellFormed = false := by decide
theorem test_ill_dslot : (Instr.ild 7 .desc 8 4 32).wellFormed = false := by decide
theorem test_ill_base : (Instr.ld 7 false .w4 .dflt 8 ⟨96, 511, 0⟩).wellFormed = false := by decide
theorem test_ill_sreg7 : (Instr.callReg 7 96).wellFormed = false := by decide
theorem test_ill_index : (Instr.ld 7 false .w4 .dflt 8 ⟨2, 384, 0⟩).wellFormed = false := by decide
theorem test_ill_noIndex : (Instr.sld 7 false .w4 .dflt 389 ⟨2, 3, 0⟩).wellFormed = false := by decide
theorem test_ill_type : (Instr.vadd 7 .i64 false 3 4 5).wellFormed = false := by decide
theorem test_ill_vcmpType : (Instr.vcmp 7 .i8 .eq 1 4 5).wellFormed = false := by decide
theorem test_ill_stream : (Instr.fadd 7 .rn false 1 1 2 3).wellFormed = false := by decide
theorem test_ill_switchKeys : (Instr.switch 7 3 1 65535 0 0).wellFormed = false := by decide
theorem test_ill_userNumber : (Instr.swr 7 7 385).wellFormed = false := by decide
theorem test_ill_privNumber : (Instr.psrd 7 389 7).wellFormed = false := by decide

/-! ### States for the witnesses -/

/-- The words of an instruction as the table numbers them. -/
def word (i : Instr) : Nat := match encode i with | [a] => a.toNat | [a, b] => a.toNat + 2 ^ 64 * b.toNat | _ => 0
/-- A launch with tiles, scratch, a grant of arrays 0 to 3, table rows, a weight-buffer window, and `more` in its record. -/
def launchWith (more : Nat) (l : Launch) : Launch :=
  { l with raw := l.raw ||| BitVec.ofNat 1024 (8 * 2 ^ 107 + 65536 * 2 ^ 256 + more),
           grant := BitVec.ofNat 1024 (8 * 2 ^ 96 + 8 * 2 ^ 128 + 2 * 2 ^ 176 + 4 * 2 ^ 208 + 1024 * 2 ^ 320) }
/-- Every translation cache that core 0 uses holds the pages of device memory. -/
def tlbsOf (s : State) : List Tlb :=
  [Tc.l1 0, .courier 0, .engine 0, .l2, .cellar 0].map (fun c => ⟨c, 0, 0, 2 ^ 30, s.dev.bar2 + 2 ^ 39, true, true⟩)
/-- The machine after reset with `i` next, its launch as `launchWith more` has it, its pack changed by `f`. -/
def sPack (more : Nat) (f : Pack → Pack) (i : Instr) : State :=
  let s := State.reset.withFetchWord 128 (word i)
  { s with agenda := [], launches := s.launches.map (launchWith more), tlbs := tlbsOf s, packs := s.packs.map f }
/-- The plain one. -/
def sAt (i : Instr) : State := sPack 0 id i
/-- The context and state in which `i` issues at `s`. -/
def cxAt (i : Instr) (s : State) : Cx := match cxOf i s with | some e => e.1 | none => ⟨[], 0, 0, clauseOf 0 0 .alu⟩
def stAt (i : Instr) (s : State) : State := match cxOf i s with | some e => e.2 | none => s
/-- The check that `i` issues at `s`. -/
def issuesAt (i : Instr) (s : State) : Bool :=
  (cxOf i s).isSome && i.wellFormed && (cxAt i s).packs.all (fun p => placeOk i (cxAt i s) ((stAt i s).pack p).priv &&
    decide (i.vtop ≤ ((stAt i s).pack p).alloc) && !interlocked (stAt i s) i p)
theorem issuesAt_sound {i : Instr} {s : State} (h : issuesAt i s = true) : Issues i s (cxAt i s) (stAt i s) := by
  simp only [issuesAt, Bool.and_eq_true, List.all_eq_true, Bool.not_eq_true', decide_eq_true_eq] at h
  obtain ⟨⟨h1, h2⟩, h3⟩ := h
  obtain ⟨e, he⟩ := Option.isSome_iff_exists.1 h1
  refine ⟨?_, h2, fun p hp => (h3 p hp).1.1, fun p hp => (h3 p hp).1.2, fun p hp => (h3 p hp).2⟩
  simp [cxAt, stAt, he]
/-- Every instruction of a list issues at its state. -/
theorem issues_all {l : List Instr} {f : Instr → State} (h : l.all (fun i => issuesAt i (f i)) = true) :
    ∀ i ∈ l, ∃ cx t, Issues i (f i) cx t := fun i hi => ⟨_, _, issuesAt_sound (List.all_eq_true.1 h i hi)⟩

/-! ### Witnesses: instructions that complete wherever they issue -/

theorem wit_scalarAluResults : ∀ i ∈ [Instr.sadd 7 .i8 true 384 479 511, .ssub 7 .i64 false 479 384 480, .smul 7 .n16 true 389 386 387,
    .smulh 7 .i32 389 386 387, .smad 7 .n64 true 389 386 387 388, .smin 7 .i64 389 386 387, .smax 7 .n8 389 386 387,
    .scmp 7 .i64 .ge 389 386 387, .ssel 7 .i64 389 386 387 388, .smov 7 .i64 389 511], ∃ cx t, Issues i (sAt i) cx t :=
  issues_all (by decide +kernel)
theorem wit_scalarLogicAndFields : ∀ i ∈ [Instr.sand 7 .i64 389 386 387, .sor 7 .n8 389 386 387, .sxor 7 .i64 389 386 387,
    .sshl 7 .i64 389 386 387, .sshr 7 .i64 389 386 387, .ssar 7 .i64 389 386 387, .spop 7 .i64 389 386, .sclz 7 .i64 389 386,
    .smovi 7 389 0x80000000, .smovh 7 389 386 7, .sbfe 7 .i64 389 386 387, .sbfi 7 .n64 389 386 387 388], ∃ cx t, Issues i (sAt i) cx t :=
  issues_all (by decide +kernel)
/-- Element 3 of I8 lanes is the last one. -/
theorem wit_wrapAndClamp : 3 < 32 / IntTy.i8.width ∧ intLo .i8 ≤ 127 ∧ (127 : Int) ≤ intHi .i8 ∧ (-129 : Int) < intLo .i8 ∧ intHi .i8 < 128 := by decide
/-- PSET to QDRAW; VCMP, FCMP and PANY with sources tagged E. -/
theorem wit_predicateInstructions : (∀ i ∈ [Instr.pset 7 1 386, .pand 7 true false 6 7 0, .por 7 false false 1 2 3, .pxor 7 false true 1 2 3, .pnot 7 1 2,
    .pmov 7 true 1 2, .qdraw 7 255 1 7, .vcmp 7 .n32 .lt 1 4 5, .fcmp 7 .gt 1 4 5, .pany 7 false 389 1], ∃ cx t, Issues i (sAt i) cx t) ∧
    ∀ f ∈ [4#9, 5], ((sAt (.vcmp 7 .n32 .lt 1 4 5)).pack 0).srcB f = false :=
  ⟨issues_all (by decide +kernel), by decide +kernel⟩
theorem wit_probabilityInstructions : (∀ i ∈ [Instr.qcmp 7 .gt 7 1 4 5, .qand 7 .none 3 1 2, .qor 7 .dep 4 3 0, .qnot 7 5 4, .qmov 7 .qq 1 7,
    .qmov 7 .fromV 1 383, .qmov 7 .toV 383 1, .qlin 7 .clr 0xFF 2 1, .qblend 7 20 3 12 13, .qgrad 7 21 1], ∃ cx t, Issues i (sAt i) cx t) ∧
    ∀ f ∈ [4#9, 5], ((sAt (.qcmp 7 .gt 7 1 4 5)).pack 0).srcB f = false :=
  ⟨issues_all (by decide +kernel), by decide +kernel⟩
theorem wit_vectorInstructions : ∀ i ∈ [Instr.vadd 7 .i8 true 3 4 5, .vsub 7 .i16 false 383 4 5, .vmul 7 .n32 true 3 4 5, .vmulh 7 .i32 3 4 5,
    .vmad 7 .i32 false 3 4 5 6, .vand 7 .i32 3 4 5, .vor 7 .i32 3 4 5, .vxor 7 .i32 3 4 5, .vnot 7 .i32 3 4, .vshl 7 .i32 3 4 5, .vshr 7 .i32 3 4 5,
    .vsar 7 .i32 3 4 5, .vmin 7 .i32 3 4 5, .vmax 7 .i32 3 4 5, .vabs 7 .i16 true 3 4, .vpop 7 .i32 3 4, .vclz 7 .i32 3 4, .vsel 7 .i32 true 3 4 5 6,
    .vmov 7 .i32 3 511, .vmovi 7 3 9, .vbfe 7 .i32 3 4 5, .vbfi 7 .n32 3 4 5 6], ∃ cx t, Issues i (sAt i) cx t := issues_all (by decide +kernel)
theorem wit_floatResults : ∀ i ∈ [Instr.fadd 7 .sr true 255 1 2 3, .fsub 7 .rz false 0 1 2 3, .fmul 7 .ru false 0 1 2 3, .ffma 7 .rd false 0 1 2 3 4,
    .fmin 7 1 2 3, .fmax 7 1 2 3, .frcp 7 1 2, .frsq 7 1 2, .fsqrt 7 1 2, .fexp2 7 1 2, .flog2 7 1 2, .frnd 7 .rn 1 2, .fclass 7 1 2,
    .hfma2 7 .rn false 0 .bf16 1 2 3 4], ∃ cx t, Issues i (sAt i) cx t := issues_all (by decide +kernel)
theorem wit_conversions : ∀ i ∈ [Instr.cvt 7 .rn true 0 .i8 .bf16 1 1 2, .cvtpk 7 .rn false 0 .e4m3 .f32 1 4, .cvtmx 7 .rn 0 .e2m1 0 8 40 4,
    .cvtl6 7 .sr 3 true 0 8 40 4], ∃ cx t, Issues i (sAt i) cx t := issues_all (by decide +kernel)
/-- In a team of one pack; no source tagged B. -/
theorem wit_laneOperations : (∀ i ∈ [Instr.vshf 7 .idx 3 4 5, .vshf 7 .up 3 4 5, .vbcst 7 3 4 386, .vwrl 7 3 386 387, .vrdl 7 389 4 386,
    .vred 7 .f32 .add true 3 4, .vscan 7 .i32 .max false true 3 4, .vbal 7 false .mask 3 1, .vbal 7 true .pre 3 1, .vbal 7 true .total 3 1],
    ∃ cx t, Issues i (sAt i) cx t) ∧ ((sAt (.vrdl 7 389 4 386)).launchOf 0).teamW = 16 ∧ (sAt (.vrdl 7 389 4 386)).spanB [0] 4 = false :=
  ⟨issues_all (by decide +kernel), by decide +kernel, by decide +kernel⟩

/-- A privileged frame on the kennel: the pack is in the privileged handler. -/
def privileged (x : Pack) : Pack := { x with kennel := [.frame (x.mkFrame 0 0x10 true)] }
/-- The state with `i` next in privileged mode. -/
def sPriv (i : Instr) : State := sPack 0 privileged i
/-- Every readable number, the ends of the ranges 3 to 6 and 8 to 13 among them. -/
theorem wit_specialReads : (∀ i ∈ (List.range 16).map (fun n => Instr.srd 7 (if n = 9 ∨ n = 14 then 3 else 389) (BitVec.ofNat 8 n)), ∃ cx t, Issues i (sAt i) cx t) ∧
    ∀ i ∈ [0, 1, 2, 3, 6, 8, 13, 16, 17, 18, 19, 20].map (fun n => Instr.psrd 7 389 (BitVec.ofNat 8 n)), ∃ cx t, Issues i (sPriv i) cx t :=
  ⟨issues_all (by decide +kernel), issues_all (by decide +kernel)⟩
theorem wit_specialRegisterWrites : (∀ i ∈ [Instr.swr 7 2 386, .swr 7 3 386, .swr 7 4 386, .swr 7 5 386, .swr 7 6 386, .gset 7 true false 7 1,
    .gset 7 false true 0 0], ∃ cx t, Issues i (sAt i) cx t) ∧
    ∀ i ∈ [0, 1, 3, 6, 8, 13].map (fun n => Instr.pswr 7 (BitVec.ofNat 8 n) 386), ∃ cx t, Issues i (sPriv i) cx t :=
  ⟨issues_all (by decide +kernel), issues_all (by decide +kernel)⟩

/-- What a path's lanes satisfy need be checked for sixteen lanes only. -/
theorem lanes16 {m : Lanes} {P : Nat → Prop} (h : ∀ l < 16, m.getLsbD l = true → P l) : ∀ l, m.getLsbD l = true → P l := by
  intro l hl
  refine h l ?_ hl
  rcases Nat.lt_or_ge l 16 with h | h
  · exact h
  · rw [BitVec.getLsbD_of_ge m l h] at hl; cases hl
/-- `exec i s` answers a next state. -/
def Runs (i : Instr) (s : State) : Prop := ∃ u, exec i s = .next u
section
variable {i : Instr} {s : State}
/-- What a statement says of that state, forgotten. -/
theorem runs {P : State → Prop} (h : ∃ u, exec i s = .next u ∧ P u) : Runs i s := h.imp (fun _ h => h.1)
theorem runsV {α : Sort _} {P : α → State → Prop} (h : ∃ v u, exec i s = .next u ∧ P v u) : Runs i s := h.elim (fun _ h => runs h)
theorem runsU {α : Sort _} {P : State → α → Prop} (h : ∃ u x, exec i s = .next u ∧ P u x) : Runs i s := h.imp (fun _ h => h.elim (fun _ h => h.1))
theorem runsC {cx : Cx} {P : State → Prop} (h : ∃ v, Completes i s cx v ∧ P v) : Runs i s := h.elim (fun _ h => h.1.imp (fun _ h => h.1))
theorem runsO {α : Sort _} {cx : Cx} {P : State → α → Prop} (h : ∃ v x, Completes i s cx v ∧ P v x) : Runs i s :=
  h.elim (fun _ h => h.elim (fun _ h => h.1.imp (fun _ h => h.1)))
end

/-- A word at code offset `a`. -/
def withWord (a w : Nat) (s : State) : State := engineWrite s ((leBytes w 8).zipIdx.map (fun e => (a + e.2, e.1)))
/-- A legal header word, of class SYS, at code offset `a`. -/
def withHeader (a : Nat) (s : State) : State := withWord a (0xFF000000 + Cls.sys.code.toNat) s
/-- P1 holds lanes 0 to 3. -/
def someP1 (x : Pack) : Pack := { x with p := x.p.set 1 0x000F }
/-- Whether a computation answers `v`. -/
def okIs {α : Type} [DecidableEq α] (r : M α) (v : α) : Bool := match r with | .ok w => decide (w = v) | .error _ => false
theorem okIs_sound {α : Type} [DecidableEq α] {r : M α} {v : α} (h : okIs r v = true) : r = .ok v := by
  cases r with
  | ok w => simp only [okIs, decide_eq_true_eq] at h; rw [h]
  | error e => cases h
/-- What a computation answers. -/
def okVal {α : Type} (r : M α) (d : α) : α := match r with | .ok w => w | .error _ => d
def isOk {α : Type} (r : M α) : Bool := match r with | .ok _ => true | .error _ => false
theorem okVal_sound {α : Type} {r : M α} (d : α) (h : isOk r = true) : r = .ok (okVal r d) := by
  cases r with
  | ok w => rfl
  | error e => cases h
/-- One operation of pack 0 outstanding, its page 1 the device's page `pg`, its class counted. -/
def sOp (pg : Nat) (k : KCls) (b : Body) : State :=
  let s := sPack 0 (fun x => { x with k := modNth x.k k.ix (· + 1) }) (.nop 7)
  { s with ops := [{ id := 0, pack := some 0, launch := 0, k := some k, tr := [(1, pg)], body := b }], nextOp := 1 }
/-- That operation. -/
def oOp (pg : Nat) (k : KCls) (b : Body) : Op := { id := 0, pack := some 0, launch := 0, k := some k, tr := [(1, pg)], body := b }
/-- The page of host memory at 0. -/
def hostPage : Nat := busBase / 4096
/-- Peer window 0 covers the addresses below 2^40; port 0 is up. -/
def withPeer (s : State) : State :=
  { s with dev := { s.dev with peerwin := s.dev.peerwin.set 0 0x8000000000000001, linkstat := s.dev.linkstat.set 0 2, bar2 := 2 ^ 41 } }
/-- The bytes of `w` that are not 0, from `a`. -/
def bytesAt (a w n : Nat) : NMap (BitVec 8) := ((leBytes w n).zipIdx.map (fun e => (a + e.2, e.1))).filter (fun e => e.2 != 0)
/-- DRAM holds more bytes, above the code. -/
def withRam (m : NMap (BitVec 8)) (s : State) : State := { s with mem := { s.mem with ram := s.mem.ram ++ m } }
/-- The invariant, checked. -/
def invB (s : State) : Bool :=
  Memory.wf s.mem.ram && mapSorted none s.mem.l2 && mapWf 0 s.wbuf && s.blocks.all (fun b => mapWf 0 b.scratch && b.tiles.all (fun t => mapWf 0 t.el))
theorem invOf {s : State} (h : invB s = true) : Inv s := by
  simp only [invB, Bool.and_eq_true, List.all_eq_true] at h
  exact ⟨h.1.1.1, h.1.1.2, h.1.2, fun b hb => ⟨(h.2 b hb).1, (h.2 b hb).2⟩⟩
def iBra : Instr := .bra 7 7 4 0
def iBr4 : Instr := .br4 7 3 15 8 0 15 1 15 2 7 4
def iSwitch : Instr := .switch 7 3 0 0 0 4
def iBrc : Instr := .brc 7 .eqz 5 4
def iRet : Instr := .ret 7
/-- A path that returns to 48. -/
def sReturn (i : Instr) : State := sPack 0 (fun x => { x with lead := { x.lead with path := some ⟨8, 0xFFFF, some 48⟩ } }) i
theorem wit_branches (h : Obligations.Branches) : Runs iBra (sAt iBra) ∧ Runs iBr4 (sAt iBr4) ∧ Runs iSwitch (sAt iSwitch) ∧
    Runs iBrc (sAt iBrc) ∧ Runs iRet (sReturn iRet) := by
  refine ⟨?_, ?_, ?_, ?_, ?_⟩
  · refine runsV ((h.1 7 7 .eqz 5 4 0 3 15 15 7 1 2 4 3 0 0 4 iBra _ _ _ 48 (issuesAt_sound (s := sAt iBra) ?_)
      ?_).1 rfl (fun p hp => ⟨by revert p; decide +kernel, lanes16 (by revert p; decide +kernel)⟩)) <;> decide +kernel
  · refine runsV ((h.1 7 15 .eqz 5 8 0 3 15 15 7 1 2 4 3 0 0 4 iBr4 _ _ _ 56 (issuesAt_sound (s := sAt iBr4) ?_)
      ?_).2.1 rfl (fun p hp => ⟨by revert p; decide +kernel, lanes16 (by revert p; decide +kernel)⟩)) <;> decide +kernel
  · refine runsV ((h.1 7 15 .eqz 5 8 0 3 15 15 7 1 2 4 3 0 0 4 iSwitch _ _ _ 56 (issuesAt_sound (s := sAt iSwitch) ?_)
      ?_).2.2.1 rfl (fun p hp => ⟨by revert p; decide +kernel, lanes16 (by revert p; decide +kernel)⟩)) <;> decide +kernel
  · refine runsV ((h.1 7 15 .eqz 5 4 0 3 15 15 7 1 2 4 3 0 0 4 iBrc _ _ _ 48 (issuesAt_sound (s := sAt iBrc) ?_)
      ?_).2.2.2.1 rfl ?_) <;> decide +kernel
  · refine runsV ((h.1 7 15 .eqz 5 4 0 3 15 15 7 1 2 4 3 0 0 4 iRet _ _ _ 48 (issuesAt_sound (s := sReturn iRet) ?_)
      ?_).2.2.2.2 rfl ?_) <;> decide +kernel
def iSplit : Instr := .bra 7 1 4 8
def sSplit : State := withHeader 80 (sPack 0 someP1 iSplit)
theorem wit_branches_split (h : Obligations.Branches) : Runs iSplit sSplit := by
  refine runsV (h.2.1 7 1 4 8 sSplit _ _ 0 ⟨8, 0xFFFF, none⟩ (issuesAt_sound ?_) ?_ ?_ ?_ ?_ ?_ ?_ ?_ ?_ ?_ ?_ ?_ ?_ ?_ ⟨0xFF000000 ||| (Cls.sys.code.setWidth 64), okIs_sound ?_, ?_⟩) <;> decide +kernel
def iCall : Instr := .call 7 4
def iCallReg : Instr := .callReg 7 5
theorem wit_branches_call (h : Obligations.Branches) : Runs iCall (sAt iCall) ∧ Runs iCallReg (sAt iCallReg) := by
  constructor
  · refine runsV ((h.2.2 7 4 5 iCall (sAt iCall) _ _ (issuesAt_sound ?_) ?_ ?_).1 rfl ?_) <;> decide +kernel
  · refine runsV ((h.2.2 7 4 5 iCallReg (sAt iCallReg) _ _ (issuesAt_sound ?_) ?_ ?_).2 rfl ?_) <;> decide +kernel
/-- With a launch that has no regions, no operation outstanding, and SLPT's clock reached. -/
theorem wit_waitsThatPass (h : Obligations.WaitsThatPass) : ∀ i ∈ [Instr.nop 7, .slpt 7 480, .waitk 7 .cpy 0, .rel 7, .dsync 7, .region 7, .acq 7],
    Runs i (sAt i) := by
  intro i hi
  have go := fun (j : Instr) hj hr => h 7 480 .cpy 0 j (sAt j) _ _ (issuesAt_sound hj) hr
  simp only [List.mem_cons, List.not_mem_nil, or_false] at hi
  rcases hi with rfl | rfl | rfl | rfl | rfl | rfl | rfl
  · refine runs ((go (.nop 7) ?_ ?_).1 rfl) <;> decide +kernel
  · refine runs ((go (.slpt 7 480) ?_ ?_).2.1 rfl ?_) <;> decide +kernel
  · refine runs ((go (.waitk 7 .cpy 0) ?_ ?_).2.2.1 rfl ?_) <;> decide +kernel
  · refine runs ((go (.rel 7) ?_ ?_).2.2.2.1 rfl ?_) <;> decide +kernel
  · refine runs ((go (.dsync 7) ?_ ?_).2.2.2.2.1 rfl ?_ ?_) <;> decide +kernel
  · refine runs ((go (.region 7) ?_ ?_).2.2.2.2.2.1 rfl ?_ ?_) <;> decide +kernel
  · refine runsV ((go (.acq 7) ?_ ?_).2.2.2.2.2.2 rfl ?_) <;> decide +kernel
/-- A load of the pack outstanding. -/
def oLoad : Op := { id := 0, pack := some 0, launch := 0, k := some .ld, dv := [200], tr := [(1, 1)], body := .load [⟨0, 4096⟩] 4 200 false false .dflt }
def sBusy (i : Instr) : State := { sPack 0 (fun x => { x with k := [1, 0, 0, 0, 0, 0] }) i with ops := [oLoad], nextOp := 1 }
theorem wit_waits (h : Obligations.Waits) : ∀ i ∈ [Instr.slpt 7 481, .waitk 7 .ld 0, .rel 7, .acq 7],
    Runs i (sBusy i) := by
  intro i hi
  have go := fun (j : Instr) hj hr => h.1 7 481 .ld 0 j (sBusy j) _ _ 0 (issuesAt_sound hj) hr
  simp only [List.mem_cons, List.not_mem_nil, or_false] at hi
  rcases hi with rfl | rfl | rfl | rfl
  · refine ⟨_, (go (.slpt 7 481) ?_ ?_ ?_ ?_).1 rfl ?_⟩ <;> decide +kernel
  · refine ⟨_, (go (.waitk 7 .ld 0) ?_ ?_ ?_ ?_).2.1 rfl ?_⟩ <;> decide +kernel
  · refine ⟨_, (go (.rel 7) ?_ ?_ ?_ ?_).2.2.1 rfl ?_⟩ <;> decide +kernel
  · refine ⟨_, (go (.acq 7) ?_ ?_ ?_ ?_).2.2.2 rfl ?_⟩ <;> decide +kernel
def iColl : Instr := .vred 7 .i32 .add true 3 4
def iScan : Instr := .vscan 7 .i32 .add true false 3 4
def iBal : Instr := .vbal 7 true .mask 3 4
def iMmaC : Instr := .mma 7 false false false 1 389 0 64 4096 128
/-- A split team of two packs, of which the first reaches the collective. -/
def sColl (i : Instr) : State :=
  let s := sPack (2 ^ 105) (fun x => { x with gang := false }) i
  { s with packs := s.packs ++ s.packs.map (fun x => { x with pk := 1, lead := {} }) }
theorem wit_waits_collective (h : Obligations.Waits) : ∀ i ∈ [iColl, iScan, iBal, iMmaC], Runs i (sColl i) := by
  intro i hi
  have go := fun d a (j : Instr) hk hj => h.2 7 .i32 .add false .mask d a false false false 0 64 4096 128 j (sColl j) _ _ 1 hk (issuesAt_sound hj) (by decide)
  simp only [List.mem_cons, List.not_mem_nil, or_false] at hi
  rcases hi with rfl | rfl | rfl | rfl
  · refine ⟨_, go 3 4 iColl (.inl rfl) ?_ ?_ ?_ ?_ ?_ ?_ ?_⟩ <;> decide +kernel
  · refine ⟨_, go 3 4 iScan (.inr (.inl rfl)) ?_ ?_ ?_ ?_ ?_ ?_ ?_⟩ <;> decide +kernel
  · refine ⟨_, go 3 4 iBal (.inr (.inr (.inl rfl))) ?_ ?_ ?_ ?_ ?_ ?_ ?_⟩ <;> decide +kernel
  · refine ⟨_, go 1 389 iMmaC (.inr (.inr (.inr rfl))) ?_ ?_ ?_ ?_ ?_ ?_ ?_⟩ <;> decide +kernel
def sExit1 : State := sPack 0 someP1 (.exit 1)
/-- A path entry waits in the kennel; the heel slot has a path. -/
def sExit2 : State := sPack 0 (fun x => { someP1 x with kennel := [.path 2 ⟨48, 0x0F00, none⟩] }) (.exit 1)
def sExit3 : State := sPack 0 (fun x => { someP1 x with heel := { path := some ⟨48, 0x0F00, none⟩ } }) (.exit 1)
theorem wit_exit_stays (h : Obligations.ExitAndYield) : Runs (.exit 1) sExit2 ∧ Runs (.exit 1) sExit3 := by
  constructor
  · refine runsV (h.1 1 sExit2 _ _ 0 ⟨8, 0xFFFF, none⟩ (issuesAt_sound ?_) ?_ ?_ ?_ ?_ ?_ ?_ ?_ ?_) <;> decide +kernel
  · refine runsV (h.1 1 sExit3 _ _ 0 ⟨8, 0xFFFF, none⟩ (issuesAt_sound ?_) ?_ ?_ ?_ ?_ ?_ ?_ ?_ ?_) <;> decide +kernel
theorem wit_exitAndYield (h : Obligations.ExitAndYield) : Runs (.exit 1) sExit1 ∧ Runs (.exit 7) (sAt (.exit 7)) ∧ Runs (.yield 7) (sAt (.yield 7)) := by
  refine ⟨?_, ?_, ?_⟩
  · refine runsV (h.1 1 sExit1 _ _ 0 ⟨8, 0xFFFF, none⟩ (issuesAt_sound ?_) ?_ ?_ ?_ ?_ ?_ ?_ ?_ ?_) <;> decide +kernel
  · refine runs (h.2.1 7 (sAt (.exit 7)) _ _ 0 ⟨8, 0xFFFF, none⟩ (issuesAt_sound ?_) ?_ ?_ ?_ ?_ ?_ ?_ ?_ ?_ ?_ ?_) <;> decide +kernel
  · refine runsV (h.2.2 7 (sAt (.yield 7)) _ _ (issuesAt_sound ?_) ?_) <;> decide +kernel
def sRegion : State := sPack (2 ^ 115) id (.region 7)
def sMsec : State := withHeader 48 (sAt (.msec 7 4))
theorem wit_regionsAndSections (h : Obligations.RegionsAndSections) : Runs (.region 7) sRegion ∧ Runs (.msec 7 4) sMsec ∧ Runs (.mend 7) (sAt (.mend 7)) := by
  refine ⟨?_, ?_, ?_⟩
  · refine runsC (h.1 7 sRegion _ _ (issuesAt_sound ?_) ?_ ?_ ?_) <;> decide +kernel
  · refine runsC ((h.2.2 7 4 sMsec _ _ (.msec 7 4) (issuesAt_sound ?_) ?_).1 (0xFF000000 ||| Cls.sys.code.setWidth 64)
      rfl ?_ (okIs_sound ?_) ?_) <;> decide +kernel
  · refine runsC ((h.2.2 7 4 (sAt (.mend 7)) _ _ (.mend 7) (issuesAt_sound ?_) ?_).2 rfl) <;> decide +kernel
def iRst : Instr := .st 7 false .w4 .dflt 8 ⟨127, 511, 64⟩
/-- A region that holds 32 lines, the first at `a`. -/
def rFull (a : Nat) : Region := ⟨0, 0xFFFF, none, 0, 0, (List.range 32).map (fun i => ⟨if i = 0 then a else 4096 + 64 * i, [(0, 7)]⟩), false, []⟩
def sRst (a : Nat) : State := sPack (2 ^ 115) (fun x => { x with region := some (rFull a) }) iRst
/-- The store falls in a line that is held already; in one more line than the buffer has. -/
theorem wit_regions_store (h : Obligations.RegionsAndSections) : Runs iRst (sRst 64) ∧ Runs iRst (sRst 0) ∧ ((rFull 64).lines.map (·.addr)).Nodup := by
  have go := fun n h0 h1 h2 h3 h4 h5 h6 h7 => h.2.1.1 7 false .w4 .dflt 8 ⟨127, 511, 64⟩ (sRst n) _ _ 0 (rFull n) (issuesAt_sound h0) h1 h2 h3 h4 h5 h6 h7
  refine ⟨?_, ?_, ?_⟩
  · refine ((go 64 ?_ ?_ ?_ ?_ ?_ ?_ ?_ ?_).1 ?_).elim (fun _ h => runsU h) <;> decide +kernel
  · refine ⟨_, (go 0 ?_ ?_ ?_ ?_ ?_ ?_ ?_ ?_).2 ?_ ?_ _ (okVal_sound State.reset ?_)⟩ <;> decide +kernel
  · decide +kernel
theorem wit_regions_end (h : Obligations.RegionsAndSections) : ∃ t, endRegion (sRst 0) 0 0 = .ok t ∧ (t.pack 0).region = none :=
  let e := okVal_sound State.reset (r := endRegion (sRst 0) 0 0) (by decide +kernel)
  ⟨_, e, (h.2.1.2.2 (sRst 0) _ 0 0 (rFull 0) (by decide +kernel) (by decide +kernel) e).elim (fun _ h => h.2.1)⟩
/-- The pack stands at a header; the heel slot is empty. -/
def sHead (w : Nat) (q : Path) (k : List KItem) (w' : Option Stall) : State :=
  { withWord 0 w (sPack 0 (fun x => { x with lead := { path := some q, stall := w' }, kennel := k, fholds := [1] ++ List.replicate 11 0 }) (.nop 7)) with clk := 1024 }
def pHead : Path := ⟨0, 0xFFFF, none⟩
theorem wit_headers (h : Obligations.Headers) : ∀ w ∈ [0xFF000000, 0xFF001000, 2 ^ 54], Runs (.clauseHeader 0 0) (sHead w pHead [] none) := by
  intro w hw
  have go := fun c h0 h1 h2 h3 h4 h5 h6 h7 h8 => h.1 0 0 0 (sHead w pHead [] none) (BitVec.ofNat 64 w) c h0 h1 h2 h3 h4 h5 h6 h7 (by decide) h8
  simp only [List.mem_cons, List.not_mem_nil, or_false] at hw
  rcases hw with rfl | rfl | rfl
  · refine runs ((go .alu ?_ ?_ ?_ ?_ ?_ ?_ ?_ ?_ (okIs_sound ?_)).1 ?_ ?_ ?_ ?_ ?_ ?_) <;> decide +kernel
  · refine ⟨_, (go .alu ?_ ?_ ?_ ?_ ?_ ?_ ?_ ?_ (okIs_sound ?_)).2.1 ?_ ?_⟩ <;> decide +kernel
  · refine ⟨_, (go .alu ?_ ?_ ?_ ?_ ?_ ?_ ?_ ?_ (okIs_sound ?_)).2.2 ?_ ⟨?_, ?_⟩ ?_⟩ <;> decide +kernel
def sArrive : State := sHead 0xFF000000 ⟨0, 0x000F, some 0⟩ [.join 3 ⟨0, 0x00FF, none⟩ 0x00F0] none
def sRotate : State := sHead 0xFF000000 pHead [.path 2 ⟨48, 0x000F, none⟩] (some .full)
theorem wit_headers_join (h : Obligations.Headers) : Runs (.clauseHeader 0 0) sArrive ∧ Runs (.rotationBlockTimeout 0 0) sRotate ∧
    Runs (.forcedIssue 0) (sHead 0xFF000000 pHead [] none) := by
  refine ⟨?_, ?_, ?_⟩
  · refine runs (h.2.1 0 0 sArrive ⟨0, 0x000F, some 0⟩ [] 0x00FF 0x00F0 none 3 ?_ ?_ ?_ ?_ ?_ ?_ ?_ ?_ ?_ ?_ ?_ ?_ ?_) <;> decide +kernel
  · refine runs ((h.2.2 0 0 sRotate ?_).1 pHead ⟨48, 0x000F, none⟩ 2 ?_ ?_ ?_ ?_ ?_ ?_ ?_ ?_ ?_ ?_ ?_) <;> decide +kernel
  · refine ⟨_, (h.2.2 0 0 (sHead 0xFF000000 pHead [] none) ?_).2 ?_ ?_ ?_ ?_⟩ <;> decide +kernel
/-- A pack that waits in its slot with `i` next. -/
def sWait (more : Nat) (w : Stall) (i : Instr) : State := sPack more (fun x => { x with lead := { x.lead with stall := some w } }) i
/-- The state in which pack 0 has the turn of its lead slot. -/
def turned (s : State) : State := (turnOf s 0 0).getD s
theorem turn_some {s : State} (h : (turnOf s 0 0).isSome = true) : turnOf s 0 0 = some (turned s) := by
  obtain ⟨u, hu⟩ := Option.isSome_iff_exists.1 h
  simp only [turned, hu, Option.getD_some]
def iSld : Instr := .sld 7 false .w8 .dflt 389 ⟨127, 511, 64⟩
def sSld : State := { sWait 0 .mshr iSld with mshr := { rejected := [⟨0, 0, 0, []⟩] } }
def sSlpt : State := sWait 0 .slpt (.slpt 7 480)
def sDsync : State := sWait (2 ^ 111) .det (.dsync 7)
theorem wit_waitersReissue (h : Obligations.WaitersReissue) : Runs (.slptWake 0 0) sSlpt ∧ Runs (.detSyncEffect 0 0) sDsync ∧ Runs (.mshrGrant 0 0) sSld := by
  refine ⟨?_, ?_, ?_⟩
  · refine runs ((h 0 0 sSlpt (turned sSlpt) .slpt (.slpt 7 480) ?_ (turn_some ?_) (okIs_sound ?_)).1 7 480 _ _ rfl rfl ?_ (issuesAt_sound ?_) ?_) <;> decide +kernel
  · refine runs ((h 0 0 sDsync (turned sDsync) .det (.dsync 7) ?_ (turn_some ?_) (okIs_sound ?_)).2.1 7 _ _ rfl rfl ?_ (issuesAt_sound ?_) ?_ ?_ ?_ ?_) <;> decide +kernel
  · refine runsV ((h 0 0 sSld (turned sSld) .mshr iSld ?_ (turn_some ?_) (okIs_sound ?_)).2.2.1 7 false .w8 .dflt 389 ⟨127, 511, 64⟩ _ _ 0 [] _ rfl rfl
      (issuesAt_sound ?_) ?_ ?_ ?_ ?_ ?_ ?_ (okVal_sound [] ?_) ?_ ?_) <;> decide +kernel
def sBarr : State := sWait (2 ^ 111) .det (.barr 7 4)
theorem wit_waitersReissue_same (h : Obligations.WaitersReissue) : exec (.mshrGrant 0 0) sSld = exec iSld (turned sSld) ∧
    exec (.detSyncEffect 0 0) sBarr = exec (.barr 7 4) (turned sBarr) := by
  refine ⟨(h 0 0 sSld (turned sSld) .mshr iSld ?_ (turn_some ?_) (okIs_sound ?_)).2.2.2.1 rfl trivial,
    (h 0 0 sBarr (turned sBarr) .det (.barr 7 4) ?_ (turn_some ?_) (okIs_sound ?_)).2.2.2.2.1 ?_ rfl rfl⟩ <;> decide +kernel
theorem wit_retirementCounts : ∃ i cx v u, Retires i cx v u ∧ 0 ∈ cx.packs ∧ 1 ∉ cx.packs := by
  obtain ⟨u, -, hr⟩ := finish_ok (i := .nop 7) (cx := cxAt (.nop 7) (sAt (.nop 7))) (t := sAt (.nop 7)) (v := sAt (.nop 7)) (by decide +kernel) (by decide +kernel)
  refine ⟨_, _, _, u, hr, ?_, by decide +kernel⟩ <;> decide +kernel
def sTrap (v : W64) (k : List KItem) : State :=
  let s := sPack 0 (fun x => { x with trapv := v, kennel := k }) (.nop 7)
  { s with parts := s.parts.map (fun q => { q with ptrapv := 64 }) }
/-- At the highest user cause. -/
theorem wit_userTrapEntry (h : Obligations.TrapEntry) : (takeTrap (sTrap 64 []) 0 0 0x0F 9 |>.pack 0).trapa = 9 := by
  have := h.1 (sTrap 64 []) 0 0 0x0F 9 ⟨8, 0xFFFF, none⟩
  rw [(this ?_ ?_ ?_ ?_ ?_ ?_ ?_).2.2] <;> decide +kernel
def inHandler : List KItem := [.frame ((sAt (.nop 7)).pack 0 |>.mkFrame 0 1 false)]
/-- At the lowest system cause; at the highest user cause with TRAPV 0; and inside a user handler. -/
theorem wit_privilegedEntry (h : Obligations.TrapEntry) : (takeTrap (sTrap 64 []) 0 0 0x10 9 |>.pack 0).priv = true ∧
    (takeTrap (sTrap 0 []) 0 0 0x0F 9 |>.pack 0).priv = true ∧ (takeTrap (sTrap 64 inHandler) 0 0 1 9 |>.pack 0).priv = true := by
  have go := fun (v : W64) k c h0 h1 h2 h3 h4 h5 => (h.2 (sTrap v k) 0 0 c 9 ⟨8, 0xFFFF, none⟩ h0 h1 h2 h3 h4 h5).2.2.1
  refine ⟨go 64 [] 0x10 ?_ ?_ ?_ ?_ ?_ ?_, go 0 [] 0x0F ?_ ?_ ?_ ?_ ?_ ?_, go 64 inHandler 1 ?_ ?_ ?_ ?_ ?_ ?_⟩ <;> decide +kernel
def sBack : State := sHead 0xFF000000 pHead [] none
theorem wit_trapReturnRoundTrip (h : Obligations.TrapAndReturns) : isOk (popFrame (sBack.modPack 0 (fun x => x.enter 0 1 false 64)) 0 0 0) = true := by
  have e1 : (sBack.pack 0).lead.path = some pHead := by decide +kernel
  have e2 : (sBack.pack 0).heel.path = none := by decide +kernel
  have e3 : pHead.mask &&& (sBack.pack 0).present = pHead.mask := by decide +kernel
  obtain ⟨t, ht, -⟩ := h.2.1 sBack 0 0 1 false 64 0 (by decide +kernel)
    ⟨by decide +kernel, fun q hq => by
      cases Option.some.inj (e1.symm.trans hq)
      exact ⟨by decide, e3, by decide, by decide, fun r hr => by cases hr⟩⟩
    ⟨by decide +kernel, fun q hq => by rw [e2] at hq; cases hq⟩
    (by decide +kernel)
  rw [ht]; rfl
def iTrap : Instr := .trap 7 5
def sRft : State := sPack 0 (fun x => { x with kennel := [.frame (x.mkFrame 0 1 false)] }) (.rft 7)
theorem wit_trapAndReturns (h : Obligations.TrapAndReturns) : Runs iTrap (sAt iTrap) ∧ Runs (.rft 7) sRft ∧ Runs (.prft 7) (sPriv (.prft 7)) ∧
    Runs (.halt 7) (sPriv (.halt 7)) ∧ Runs (.snap 7) (sPriv (.snap 7)) := by
  refine ⟨?_, ?_, ?_, ?_, ?_⟩
  · refine runs (h.1 7 5 (sAt iTrap) _ _ 0 (issuesAt_sound ?_) ?_ ?_ ⟨?_, ?_⟩) <;> decide +kernel
  · refine runsV (h.2.2.1 7 (.rft 7) sRft _ _ _ 0 (issuesAt_sound ?_) ?_ ?_ ?_
      (okVal_sound State.reset ?_) ?_) <;> decide +kernel
  · refine runsV (h.2.2.1 7 (.prft 7) (sPriv (.prft 7)) _ _ _ 0 (issuesAt_sound ?_) ?_ ?_ (.inr rfl)
      (okVal_sound State.reset ?_) ?_) <;> decide +kernel
  · refine runs ((h.2.2.2 7 (.halt 7) (sPriv (.halt 7)) _ _ 0 (issuesAt_sound ?_) ?_ ?_ ?_ ?_).1 rfl) <;> decide +kernel
  · refine runs ((h.2.2.2 7 (.snap 7) (sPriv (.snap 7)) _ _ 0 (issuesAt_sound ?_) ?_ ?_ ?_ ?_).2 rfl) <;> decide +kernel
def iLd : Instr := .ld 7 false .w16 .dflt 8 ⟨127, 511, 64⟩
def iSt : Instr := .st 7 false .w8 .dflt 8 ⟨127, 511, 64⟩
def iSst : Instr := .sst 7 .w1 .dflt 389 ⟨127, 511, 65⟩
theorem wit_loadsAndStoresIssue (h : Obligations.LoadsAndStoresIssue) : Runs iLd (sAt iLd) ∧ Runs iSld (sAt iSld) ∧ Runs iSt (sAt iSt) ∧ Runs iSst (sAt iSst) := by
  refine ⟨?_, ?_, ?_, ?_⟩
  · refine runsV ((h.1 7 false .w16 .dflt 8 ⟨127, 511, 64⟩).1 (sAt iLd) _ _ _ (issuesAt_sound ?_) ?_
      ⟨?_, _, ?_, okVal_sound [] ?_, ?_, ?_, rfl⟩) <;> decide +kernel
  · refine runsV ((h.1 7 false .w8 .dflt 389 ⟨127, 511, 64⟩).2 (sAt iSld) _ _ _ (issuesAt_sound ?_) ?_
      ⟨_, ?_, okVal_sound [] ?_, ?_, ?_, rfl⟩) <;> decide +kernel
  · refine runsV ((h.2 7 false .w8 .dflt 8 ⟨127, 511, 64⟩).1 (sAt iSt) _ _ _ (issuesAt_sound ?_) ?_
      ⟨?_, _, ?_, okVal_sound [] ?_, rfl⟩) <;> decide +kernel
  · refine runsV ((h.2 7 false .w1 .dflt 389 ⟨127, 511, 65⟩).2 (sAt iSst) _ _ _ (issuesAt_sound ?_) ?_
      ⟨_, ?_, okVal_sound [] ?_, rfl⟩) <;> decide +kernel
/-- S0 holds `n`; P1 holds lane 0. -/
def withS0 (n : Nat) (x : Pack) : Pack := { x with s := x.s.set 0 (BitVec.ofNat 64 n), p := x.p.set 1 1 }
def iLds : Instr := .lds 7 .w16 8 ⟨0, 511, 0⟩
def iSts (o : BitVec 16) : Instr := .sts 1 false .w16 8 ⟨0, 511, o⟩
/-- The last 16 bytes of the scratchpad; one byte further; and the first place beyond it. -/
theorem wit_scratchpad (h : Obligations.Scratchpad) : Runs iLds (sPack 0 (withS0 65520) iLds) ∧ Runs (iSts 0) (sPack 0 (withS0 65520) (iSts 0)) ∧
    Runs (iSts 1) (sPack 0 (withS0 65520) (iSts 1)) ∧ Runs (iSts 16) (sPack 0 (withS0 65520) (iSts 16)) := by
  refine ⟨?_, ?_, ?_, ?_⟩
  · refine runsV ((h.1 7 false .w16 8 ⟨0, 511, 0⟩ iLds (sPack 0 (withS0 65520) iLds) _ _ 0 (issuesAt_sound ?_) ?_ ?_ ?_ ?_ ?_).1 rfl ?_) <;> decide +kernel
  · refine runsV ((h.1 1 false .w16 8 ⟨0, 511, 0⟩ (iSts 0) (sPack 0 (withS0 65520) (iSts 0)) _ _ 0 (issuesAt_sound ?_) ?_ ?_ ?_ ?_ ?_).2 rfl ?_) <;> decide +kernel
  · refine ⟨_, (h.2 1 false .w16 8 ⟨0, 511, 1⟩ (iSts 1) (sPack 0 (withS0 65520) (iSts 1)) _ _ 0 (.inr ⟨rfl, ?_⟩) (issuesAt_sound ?_) ?_ ?_ ⟨?_, ?_⟩).1 0 ?_⟩ <;> decide +kernel
  · refine ⟨_, (h.2 1 false .w16 8 ⟨0, 511, 16⟩ (iSts 16) (sPack 0 (withS0 65520) (iSts 16)) _ _ 0 (.inr ⟨rfl, ?_⟩) (issuesAt_sound ?_) ?_ ?_ ⟨?_, ?_⟩).2 ?_ 65536 ?_ ?_⟩ <;> decide +kernel
def iLdx : Instr := .lds 7 .w4 8 ⟨0, 9, 0⟩
/-- Lanes 2 and 5 load from 65532 + `n` and from there on, the others from 0. -/
def sLdx (n : Nat) : State :=
  sPack 0 (fun x => ((withS0 0 x).writeLanes 9 0xFFFF (fun l => if l = 2 then BitVec.ofNat 32 (65532 + n) else if l = 5 then BitVec.ofNat 32 (65536 + n) else 0))) iLdx
theorem wit_scratchpad_loads (h : Obligations.Scratchpad) : Runs iLdx (sLdx 1) ∧ Runs iLdx (sLdx 0) := by
  constructor
  · refine ⟨_, (h.2 7 false .w4 8 ⟨0, 9, 0⟩ iLdx (sLdx 1) _ _ 0 (.inl rfl) (issuesAt_sound ?_) ?_ ?_ ⟨?_, ?_⟩).1 2 ?_⟩ <;> decide +kernel
  · refine ⟨_, (h.2 7 false .w4 8 ⟨0, 9, 0⟩ iLdx (sLdx 0) _ _ 0 (.inl rfl) (issuesAt_sound ?_) ?_ ?_ ⟨?_, ?_⟩).2 ?_ 65536 ⟨5, ?_, ?_, ?_⟩ ?_⟩ <;> decide +kernel
def iAtom : Instr := .atom 7 .add .w8 8 ⟨127, 511, 64⟩
def iAcas : Instr := .acas 7 .w8 8 ⟨127, 511, 64⟩
def iFatom : Instr := .fatom 7 .max .bf16 8 ⟨127, 511, 64⟩
theorem wit_atomicsIssue (h : Obligations.AtomicsIssue) : Runs iAtom (sAt iAtom) ∧ Runs iAcas (sAt iAcas) ∧ Runs iFatom (sAt iFatom) := by
  refine ⟨?_, ?_, ?_⟩
  · refine runsV ((h 7 .add .max .bf16 .w8 8 ⟨127, 511, 64⟩).1 (sAt iAtom) _ _ _ (issuesAt_sound ?_) ?_
      ⟨_, ⟨?_, okVal_sound [] ?_, .inl ?_⟩, rfl⟩) <;> decide +kernel
  · refine runsV ((h 7 .add .max .bf16 .w8 8 ⟨127, 511, 64⟩).2.1 (sAt iAcas) _ _ _ (issuesAt_sound ?_) ?_
      ⟨_, ⟨?_, okVal_sound [] ?_, .inl ?_⟩, rfl⟩) <;> decide +kernel
  · refine runsV ((h 7 .add .max .bf16 .w8 8 ⟨127, 511, 64⟩).2.2 (sAt iFatom) _ _ _ (issuesAt_sound ?_) ?_
      ⟨_, ⟨?_, okVal_sound [] ?_, .inl ?_⟩, rfl⟩) <;> decide +kernel
def iCmo : Instr := .cmo 7 .clean .l2 384 ⟨127, 511, 128⟩
def iBmp : Instr := .cmoBmp 7 .l2 384 ⟨127, 511, 128⟩
def iPref : Instr := .pref 7 true ⟨127, 511, 128⟩
theorem wit_cacheMaintenanceIssues (h : Obligations.CacheMaintenanceIssues) : Runs iCmo (sPack 0 (withS0 1) iCmo) ∧ Runs iBmp (sPack 0 (withS0 1) iBmp) ∧
    Runs iCmo (sPack 0 (withS0 0) iCmo) ∧ Runs iPref (sAt iPref) ∧ Runs (.pref 0 true ⟨127, 511, 128⟩) (sAt (.pref 0 true ⟨127, 511, 128⟩)) := by
  have go := fun g => h g .clean .l2 true 384 ⟨127, 511, 128⟩ 0
  refine ⟨?_, ?_, ?_, ?_, ?_⟩
  · refine runsV ((go 7).1.1 (sPack 0 (withS0 1) iCmo) _ _ _ (issuesAt_sound ?_) ?_ ⟨?_, ?_, ?_, ?_, ?_, rfl⟩) <;> decide +kernel
  · refine runsV ((go 7).2.1.1 (sPack 0 (withS0 1) iBmp) _ _ _ (issuesAt_sound ?_) ?_ ⟨?_, ?_, ?_, ?_, ?_, rfl⟩) <;> decide +kernel
  · refine runsC (((go 7).1.2 (sPack 0 (withS0 0) iCmo) _ _ (issuesAt_sound ?_) ?_).2 ?_ ?_ ?_ ?_ ?_ ?_) <;> decide +kernel
  · refine runsC (((go 7).2.2 (sAt iPref) _ _ (issuesAt_sound ?_) ?_).1 ?_ ?_) <;> decide +kernel
  · refine runs (((go 0).2.2 (sAt (.pref 0 true ⟨127, 511, 128⟩)) _ _ (issuesAt_sound ?_) ?_).2 ?_) <;> decide +kernel
def bLoad (sx scalar : Bool) : Body := .load [⟨3, 4096⟩] 4 (if scalar then 5 else 8) sx scalar .dflt
theorem wit_loadDataArrives (h : Obligations.LoadDataArrives) : Runs (.loadDataReturn 0 []) (sOp 1 .ld (bLoad false false)) ∧
    Runs (.hostPeerLoadCompletion 0) (sOp hostPage .ld (bLoad true true)) := by
  constructor
  · refine runs (h (sOp 1 .ld (bLoad false false)) 0 0 (oOp 1 .ld (bLoad false false)) [⟨3, 4096⟩] 4 8 false false .dflt ?_ ?_ ?_ ?_ ?_ ?_ ?_ ?_ ?_ ?_) <;> decide +kernel
  · refine runs (h (sOp hostPage .ld (bLoad true true)) 0 0 (oOp hostPage .ld (bLoad true true)) [⟨3, 4096⟩] 4 5 true true .dflt ?_ ?_ ?_ ?_ ?_ ?_ ?_ ?_ ?_ ?_) <;> decide +kernel
def bStore (a : Nat) : Body := .store [(a, 7), (a + 1, 8)] true
theorem wit_storesComplete (h : Obligations.StoresComplete) : Runs (.storeRegister 0 1024 []) (sOp 1 .st (bStore 4096)) ∧
    Runs (.hostFlushReadCompletion 0) (sOp 1 .st (bStore (busBase + 4096))) ∧ Runs (.peerAcknowledge 0) (withPeer (sOp 1 .st (bStore (peerBase + 4096)))) := by
  refine ⟨?_, ?_, ?_⟩
  · refine runs (h.1 (sOp 1 .st (bStore 4096)) 0 1024 (oOp 1 .st (bStore 4096)) [(4096, 7), (4097, 8)] (invOf ?_) ?_ ?_ ?_ ?_ trivial) <;> decide +kernel
  · refine runs ((h.2 (sOp 1 .st (bStore (busBase + 4096))) 0 (oOp 1 .st (bStore (busBase + 4096))) [(busBase + 4096, 7), (busBase + 4097, 8)] ?_ ?_ ?_ ?_ trivial).1 ?_) <;> decide +kernel
  · refine runs ((h.2 (withPeer (sOp 1 .st (bStore (peerBase + 4096)))) 0 (oOp 1 .st (bStore (peerBase + 4096))) [(peerBase + 4096, 7), (peerBase + 4097, 8)]
      ?_ ?_ ?_ ?_ trivial).2 ?_ ?_) <;> decide +kernel
def bAtom : Body := .atom (some .add) 8 8 [⟨15, 4096, 3, 0⟩]
theorem wit_atomicsComplete (h : Obligations.AtomicsComplete) : Runs (.atomicPerform 0 15) (sOp 1 .ld bAtom) ∧
    Runs (.hostAtomicopCompletion 0 15 true) (sOp hostPage .ld bAtom) := by
  constructor
  · refine runs ((h.1 (sOp 1 .ld bAtom) 0 0 15 8 8 4096 (some .add) (oOp 1 .ld bAtom) [⟨15, 4096, 3, 0⟩] ⟨15, 4096, 3, 0⟩ ?_ ?_ ?_ ?_ ?_ ?_ (invOf ?_) ?_ ?_ ?_ ?_ ?_ ?_).1 ?_) <;> decide +kernel
  · refine runs (((h.1 (sOp hostPage .ld bAtom) 0 0 15 8 8 busBase (some .add) (oOp hostPage .ld bAtom) [⟨15, 4096, 3, 0⟩] ⟨15, 4096, 3, 0⟩ ?_ ?_ ?_ ?_ ?_ ?_ (invOf ?_) ?_ ?_ ?_ ?_ ?_ ?_).2 ?_).1) <;> decide +kernel
def uAdd : AddU := ⟨0, 0, 0, 4096, .f32, .add, 0x3F800000⟩
theorem wit_atomicsComplete_add (h : Obligations.AtomicsComplete) : Runs (.splatAddArrival 0 0) (sOp 1 .st (.adds [uAdd] false false [])) := by
  refine runs (h.2 (sOp 1 .st (.adds [uAdd] false false [])) 0 0 0 (oOp 1 .st (.adds [uAdd] false false [])) uAdd [uAdd] false [] ?_ ?_ ?_ ?_ ?_ ?_ ?_ (invOf ?_)) <;> decide +kernel
def bCmo : Body := .cmo .inval .mem [4096]
def bPref : Body := .pref true [32]
/-- A load turned away at clock 0, and the clock 4,096 later. -/
def sAged : State :=
  { sWait 0 .mshr iSld with clk := 4096, mshr := { rejected := [⟨0, 0, 0, []⟩], turned := [⟨waiterOf 0 0, 0, 1, 0⟩] } }
def sTurned : State := { sWait 0 .xlate iSld with clk := 4096, mshr := { turned := [⟨waiterOf 0 0, 0, 1, 0⟩] } }
/-- Core 0 has loaded from the page. -/
def sNear : State := let s := sAt (.nop 7); { s with mem := { s.mem with l1 := [(256 * 64, 0)] } }
theorem wit_cacheEvents (h : Obligations.CacheEvents) : Runs (.cmoComplete 0) (sOp 1 .st bCmo) ∧ Runs (.loadDataReturn 0 []) (sOp 1 .ld bPref) ∧
    Runs (.hardwarePrefetch (some 0) 0 0) sNear ∧ Runs (.mshrAgeHold 0) sAged ∧ Runs .mergeTableAgeHold sTurned := by
  refine ⟨?_, ?_, ?_, ?_, ?_⟩
  · refine runs ((h (sOp 1 .st bCmo) 0 0 (oOp 1 .st bCmo) .inval .mem [4096] (invOf ?_) ?_).1 ?_ ?_ ?_ ?_ ?_ ?_ ?_ ?_ ?_ ?_) <;> decide +kernel
  · refine runs ((h (sOp 1 .ld bPref) 0 0 (oOp 1 .ld bPref) .inval .mem [32] (invOf ?_) ?_).2.1 true ?_ ?_ ?_ ?_ ?_ ?_) <;> decide +kernel
  · refine runs ((h sNear 0 0 (oOp 1 .st bCmo) .inval .mem [4096] (invOf ?_) ?_).2.2.1 (some 0) 0 0 0 ?_ ?_) <;> decide +kernel
  · refine ⟨_, (h sAged 0 0 (oOp 1 .st bCmo) .inval .mem [4096] (invOf ?_) ?_).2.2.2.1 0 ⟨0, 0, 0, []⟩ ?_ ?_ ?_⟩ <;> decide +kernel
  · refine ⟨_, (h sTurned 0 0 (oOp 1 .st bCmo) .inval .mem [4096] (invOf ?_) ?_).2.2.2.2 ⟨waiterOf 0 0, 0, 1, 0⟩ ?_ ?_ ?_⟩ <;> decide +kernel
/-- A dense descriptor of sixteen FP32 elements at 4,096, order 1; and a cell descriptor of sixteen buckets there. -/
def rDense : BitVec 512 := BitVec.ofNat 512 (4096 + 15 * 2 ^ 64 + 4 * 2 ^ 128 + 2 ^ 283)
def rCell : BitVec 512 := BitVec.ofNat 512 (4096 + 3 * 2 ^ 280 + 4 * 2 ^ 384 + 127 * 2 ^ 439)
/-- Descriptor slot 0 of the block holds the dense one and slot 1 the cell one. -/
def withSlots (s : State) : State :=
  { s with blocks := s.blocks.map (fun b => { b with slots := (b.slots.set 0 (some ⟨rDense, 64⟩)).set 1 (some ⟨rCell, 128⟩) }) }
def sGrid (i : Instr) : State := withSlots (sPack 0 someP1 i)
def iGdld : Instr := .gdld 7 2 ⟨127, 511, 64⟩
def sGdld : State := withRam (bytesAt 64 rDense.toNat 64) (sAt iGdld)
theorem wit_gdld (h : Obligations.GridInstructionsIssue) : Runs iGdld sGdld := by
  refine runsV (h.1 7 2 ⟨127, 511, 64⟩ 0 sGdld _ _ _ (issuesAt_sound ?_) ?_
    ⟨[], _, ?_, ?_, okVal_sound [] ?_, ?_, ?_, ?_, ?_, ?_, ?_, rfl⟩) <;> decide +kernel
def iIld : Instr := .ild 1 .desc 8 4 0
theorem wit_ild (h : Obligations.GridInstructionsIssue) : Runs iIld (sGrid iIld) := by
  refine runsV ((h.2 1 .desc 8 4 0 0 ⟨rDense, 64⟩ 0).1 (sGrid iIld) _ _ _ (issuesAt_sound ?_) ?_
    ⟨_, okIs_sound ?_, ?_, ?_, ⟨okVal_sound [] ?_, ?_⟩, ?_, ?_, rfl⟩) <;> decide +kernel
def iIldg : Instr := .ildg 1 .o3 8 4 0
theorem wit_ildg (h : Obligations.GridInstructionsIssue) : Runs iIldg (sGrid iIldg) := by
  refine runsV ((h.2 1 .o3 8 4 0 0 ⟨rDense, 64⟩ 0).2.1 (sGrid iIldg) _ _ _ (issuesAt_sound ?_) ?_
    ⟨_, okIs_sound ?_, ?_, ?_, ⟨okVal_sound [] ?_, ?_⟩, ?_, ?_, rfl⟩) <;> decide +kernel
def iHfind : Instr := .hfind 1 8 4 1
def iNbr : Instr := .nbr 1 8 4 1
theorem wit_find (h : Obligations.GridInstructionsIssue) : Runs iHfind (sGrid iHfind) ∧ Runs iNbr (sGrid iNbr) := by
  constructor
  · refine runsV ((h.2 1 .desc 8 4 1 0 ⟨rCell, 128⟩ 0).2.2.1 (sGrid iHfind) _ _ _ (issuesAt_sound ?_) ?_
      ⟨_, okIs_sound ?_, ?_, ⟨okVal_sound [] ?_, ?_⟩, ?_, ?_, rfl⟩) <;> decide +kernel
  · refine runsV ((h.2 1 .desc 8 4 1 0 ⟨rCell, 128⟩ 0).2.2.2.1 (sGrid iNbr) _ _ _ (issuesAt_sound ?_) ?_
      ⟨_, okIs_sound ?_, ?_, ⟨okVal_sound [] ?_, ?_⟩, ?_, ?_, rfl⟩) <;> decide +kernel
def iIspl : Instr := .ispl 1 .o0 4 0 8
/-- V8 holds 1.0 in lanes 0 to 3. -/
def sIspl : State := withSlots (sPack 0 (fun x => (someP1 x).writeLanes 8 0x000F (fun _ => 0x3F800000)) iIspl)
def iHins : Instr := .hins 1 8 4 1 12
def iHframe : Instr := .hframe 7 389 1
theorem wit_update (h : Obligations.GridInstructionsIssue) : Runs iIspl sIspl ∧ Runs iHins (sGrid iHins) ∧ Runs iHframe (sGrid iHframe) := by
  refine ⟨?_, ?_, ?_⟩
  · refine runsV ((h.2 1 .o0 8 4 0 8 ⟨rDense, 64⟩ 0).2.2.2.2.1 sIspl _ _ _ (issuesAt_sound ?_) ?_
      ⟨_, okIs_sound ?_, ?_, ?_, ⟨okVal_sound [] ?_, ?_⟩, .inl ?_,
        fun q hq => by
          have e : q = 0 := List.mem_singleton.1 (show q ∈ [0] from (show (stAt iIspl sIspl).acting (cxAt iIspl sIspl) 1 = [0] from by decide +kernel) ▸ hq)
          subst e; decide +kernel, rfl⟩) <;> decide +kernel
  · refine runsV ((h.2 1 .o0 8 4 1 12 ⟨rCell, 128⟩ 0).2.2.2.2.2.1 (sGrid iHins) _ _ _ (issuesAt_sound ?_) ?_
      ⟨_, okIs_sound ?_, ?_, ⟨okVal_sound [] ?_, ?_⟩, .inl ?_, rfl⟩) <;> decide +kernel
  · refine runsV ((h.2 7 .o0 389 4 1 12 ⟨rCell, 128⟩ 0).2.2.2.2.2.2 (sGrid iHframe) _ _ _ (issuesAt_sound ?_) ?_
      ⟨[], _, ?_, ?_, okIs_sound ?_, okVal_sound [] ?_, rfl⟩) <;> decide +kernel
/-- One operation of pack 0, the state changed. -/
def sOpF (k : KCls) (b : Body) (f : State → State) : State := f (sOp 1 k b)
def bGdld : Body := .gdld 2 rDense 64 [0]
def bHins : Body := .hins ⟨rCell, 4096⟩ [⟨3, [0x7FC00000], 5⟩] 8
def bHframe (gone : Option (List Nat)) : Body := .hframe 1 ⟨rCell, 4096⟩ [0] 5 0 gone
theorem runsW {P : State → Nat → Prop} {l : List Nat} {i : Instr} {s : State} (h : ∃ u, ∃ b ∈ l, exec i s = .next u ∧ P u b) : Runs i s :=
  h.imp (fun _ h => h.elim (fun _ h => h.2.1))
/-- The step of HFRAME, the first bucket's clearing, and the last's. -/
theorem wit_gridEvents (h : Obligations.GridEvents) : Runs (.gdldDataArrival 0) (sOp 1 .ld bGdld) ∧ Runs (.hinsBucketStep 0 3) (sOp 1 .ld bHins) ∧
    Runs (.hframeApply 0) (sOp 1 .st (bHframe none)) ∧ ∀ n ∈ [0, 15], Runs (.hframeApply 0) (sOp 1 .st (bHframe (some (List.range n)))) := by
  have go := fun k b => h (sOp 1 k b) 0 0 (oOp 1 k b)
  refine ⟨?_, ?_, ?_, fun n hn => ?_⟩
  · refine runs ((go .ld bGdld ?_ ?_ ?_ ?_ ?_ ?_).1 2 rDense 64 [0] rfl ?_ ?_) <;> decide +kernel
  · refine runs ((go .ld bHins ?_ ?_ ?_ ?_ ?_ ?_).2.1
      ⟨rCell, 4096⟩ [⟨3, [0x7FC00000], 5⟩] ⟨3, [0x7FC00000], 5⟩ 8 rfl ?_ ?_ ?_ ?_ ?_ ?_ ?_ ?_) <;> decide +kernel
  · refine runs ((go .st (bHframe none) ?_ ?_ ?_ ?_ ?_ ?_).2.2.1 1 ⟨rCell, 4096⟩ [0] 5 0 rfl ?_ ?_ ?_) <;> decide +kernel
  · have at' := fun n h1 h2 h3 h4 h5 h6 => (go .st (bHframe (some (List.range n))) h1 h2 h3 h4 h5 h6).2.2.2
      1 ⟨rCell, 4096⟩ [0] 5 0 (List.range n) rfl
    simp only [List.mem_cons, List.not_mem_nil, or_false] at hn
    rcases hn with rfl | rfl
    · refine runsW (at' 0 ?_ ?_ ?_ ?_ ?_ ?_ ?_ (invOf ?_) ?_) <;> decide +kernel
    · refine runsW (at' 15 ?_ ?_ ?_ ?_ ?_ ?_ ?_ (invOf ?_) ?_) <;> decide +kernel
def bGrid (grad : Bool) : Body := .grid ⟨rDense, 64⟩ 1 grad [⟨3, [0x3F800000], 0⟩] 8
def bFind : Body := .hfind ⟨rCell, 4096⟩ [⟨3, [0], 0⟩, ⟨4, [0x7FC00000], 0⟩] 8
def bNbr : Body := .nbr ⟨rCell, 4096⟩ [⟨3, [0], 0⟩] 8
/-- The data of a grid load, also from host memory, and of a search; the elements and buckets are zero. -/
theorem wit_gridDataArrives (h : Obligations.GridDataArrives) : Runs (.loadDataReturn 0 []) (sOp 1 .ld (bGrid true)) ∧
    Runs (.hostPeerLoadCompletion 0) (sOp hostPage .ld (bGrid false)) ∧ Runs (.loadDataReturn 0 []) (sOp 1 .ld bFind) ∧
    Runs (.loadDataReturn 0 []) (sOp 1 .ld bNbr) := by
  have go := fun pg b => h (sOp pg .ld b) 0 0 (oOp pg .ld b)
  have put := fun pg b (v : Bool) (hv : (oOp pg .ld b).foot.any (fun r => isBus r.1) = v) {P : State → Prop}
      (h : ∃ u, exec (if (oOp pg .ld b).foot.any (fun r => isBus r.1) then .hostPeerLoadCompletion 0 else .loadDataReturn 0 []) (sOp pg .ld b) = .next u ∧ P u) =>
    show Runs (if v then .hostPeerLoadCompletion 0 else .loadDataReturn 0 []) (sOp pg .ld b) from hv ▸ runs h
  refine ⟨?_, ?_, ?_, ?_⟩
  · refine put 1 (bGrid true) false ?_ ((go 1 (bGrid true) ?_ ?_ ?_ ?_ ?_ ?_ ?_ ?_).1 _ _ _ _ _ rfl) <;> decide +kernel
  · refine put hostPage (bGrid false) true ?_ ((go hostPage (bGrid false) ?_ ?_ ?_ ?_ ?_ ?_ ?_ ?_).1 _ _ _ _ _ rfl) <;> decide +kernel
  · refine put 1 bFind false ?_ ((go 1 bFind ?_ ?_ ?_ ?_ ?_ ?_ ?_ ?_).2.1 _ _ _ rfl) <;> decide +kernel
  · refine put 1 bNbr false ?_ ((go 1 bNbr ?_ ?_ ?_ ?_ ?_ ?_ ?_ ?_).2.2 _ _ _ rfl) <;> decide +kernel
/-- Barrier 4 with `e` expected and `n` arrived. -/
def withBar (e n : Nat) (ph : BitVec 32) (s : State) : State := { s with blocks := s.blocks.map (fun b => { b with bars := b.bars.set 4 ⟨e, n, ph⟩ }) }
theorem wit_barrierInstructions (h : Obligations.BarrierInstructions) :
    (∀ i ∈ [Instr.binit 7 4 65535, .barr 7 4, .bjoin 7 4, .bleave 7 4, .btest 7 389 4, .bwait 7 4], Runs i (withBar 2 1 0 (sAt i))) ∧
    Runs (.bwait 7 4) (withBar 2 1 9 (sAt (.bwait 7 4))) := by
  refine ⟨?_, ?_⟩
  · intro i hi
    simp only [List.mem_cons, List.not_mem_nil, or_false] at hi
    rcases hi with rfl | rfl | rfl | rfl | rfl | rfl
    · refine runsC ((h 7 4 4 65535 (.binit 7 4 65535) (withBar 2 1 0 (sAt (.binit 7 4 65535))) _ _ 0 (issuesAt_sound ?_)
        ?_ ?_ ?_ ?_).1 rfl ?_ ?_ ?_) <;> decide +kernel
    · refine runsC ((h 7 4 4 65535 (.barr 7 4) (withBar 2 1 0 (sAt (.barr 7 4))) _ _ 0 (issuesAt_sound ?_)
        ?_ ?_ ?_ ?_).2.1 rfl ?_) <;> decide +kernel
    · refine runsC ((h 7 4 4 65535 (.bjoin 7 4) (withBar 2 1 0 (sAt (.bjoin 7 4))) _ _ 0 (issuesAt_sound ?_)
        ?_ ?_ ?_ ?_).2.2.1 rfl ?_) <;> decide +kernel
    · refine runsC ((h 7 4 4 65535 (.bleave 7 4) (withBar 2 1 0 (sAt (.bleave 7 4))) _ _ 0 (issuesAt_sound ?_)
        ?_ ?_ ?_ ?_).2.2.2.1 rfl ?_) <;> decide +kernel
    · refine runsC ((h 7 389 4 65535 (.btest 7 389 4) (withBar 2 1 0 (sAt (.btest 7 389 4))) _ _ 0 (issuesAt_sound ?_)
        ?_ ?_ ?_ ?_).2.2.2.2.1 rfl) <;> decide +kernel
    · refine ⟨_, (h 7 4 4 65535 (.bwait 7 4) (withBar 2 1 0 (sAt (.bwait 7 4))) _ _ 0 (issuesAt_sound ?_)
        ?_ ?_ ?_ ?_).2.2.2.2.2.2 rfl ?_⟩ <;> decide +kernel
  · refine runs ((h 7 4 4 65535 (.bwait 7 4) (withBar 2 1 9 (sAt (.bwait 7 4))) _ _ 0 (issuesAt_sound ?_)
      ?_ ?_ ?_ ?_).2.2.2.2.2.1 rfl ?_) <;> decide +kernel
/-- A waybill of sixteen elements of four bytes at 4,096, rows 64 bytes apart. -/
def rBill : BitVec 512 := BitVec.ofNat 512 (4096 + 16 * 2 ^ 64 + 2 * 2 ^ 474 + 64 * 2 ^ 480)
/-- V16 to V20 hold 1: the box has one element. -/
def oneBox (x : Pack) : Pack := { x with v := x.v.take 256 ++ List.replicate 80 1 ++ x.v.drop 336 }
def sBill (i : Instr) : State := withRam (bytesAt 64 rBill.toNat 64) (sPack 0 oneBox i)
def iCpy : Instr := .cpy 7 true true false 0 3 127 10 16 389 ⟨127, 511, 64⟩
def iCpyr : Instr := .cpyr 7 .f32 false true 2 3 127 10 16 389 ⟨127, 511, 64⟩
theorem wit_copiesIssue (h : Obligations.CopiesIssue) : Runs iCpy (sBill iCpy) ∧ Runs iCpyr (sBill iCpyr) := by
  refine ⟨?_, ?_⟩
  · refine runsV ((h 7 true true false .f32 0 3 127 10 16 389 ⟨127, 511, 64⟩ (sBill iCpy) _ (stAt iCpy (sBill iCpy))).1 (issuesAt_sound ?_)
      0 [] [(0, 0)] [(1, 2 ^ 24)] [] ?_ ?_ ?_ ?_ ?_ ?_ ?_ ?_ (okIs_sound ?_) ?_ ?_ ?_ ?_ (okIs_sound ?_) ?_ (okIs_sound ?_) ?_) <;> decide +kernel
  · refine runsV ((h 7 false false true .f32 2 3 127 10 16 389 ⟨127, 511, 64⟩ (sBill iCpyr) _ (stAt iCpyr (sBill iCpyr))).2 (issuesAt_sound ?_)
      0 [] [(0, 0)] [(1, 2 ^ 24)] _ ?_ ?_ ?_ ?_ ?_ ?_ ?_ ?_ (okIs_sound ?_) ?_ ?_ ?_ ?_ (okIs_sound ?_) ?_ (okVal_sound [] ?_) ?_) <;> decide +kernel
/-- A box without elements, no operation outstanding. -/
def sEmpty : State := withRam (bytesAt 64 rBill.toNat 64) (sPack 0 id iCpy)
theorem wit_copiesIssue_empty (h : Obligations.CopiesIssue) : Runs iCpy sEmpty ∧ Numbered (stAt iCpy sEmpty) := by
  refine ⟨?_, ⟨?_, ?_⟩⟩
  · refine runsV ((h 7 true true false .f32 0 3 127 10 16 389 ⟨127, 511, 64⟩ sEmpty _ (stAt iCpy sEmpty)).1 (issuesAt_sound ?_)
      0 [] [(0, 0)] [] [] ?_ ?_ ?_ ?_ ?_ ?_ ?_ ?_ (okIs_sound ?_) ?_ ?_ ?_ ?_ (okIs_sound ?_) ?_ (okIs_sound ?_) ?_) <;> decide +kernel
  all_goals decide +kernel
def sProbe : State := let s := sBill iCpy; s.modPack 0 (fun x => { x with lead := { x.lead with stall := some .interlock } })
/-- A copy that waits is issued again. -/
theorem wit_waitersReissue_copy (h : Obligations.WaitersReissue) : Runs (.copyIssueProbe 0 0) sProbe := by
  refine runsV ((h 0 0 sProbe (turned sProbe) .interlock iCpy ?_ (turn_some ?_) (okIs_sound ?_)).2.2.2.2.2.1 7 true true false 0 3 127 10 16 389 ⟨127, 511, 64⟩
    _ (stAt iCpy (turned sProbe)) rfl (issuesAt_sound ?_)
    0 [] [(0, 0)] [(1, 2 ^ 24)] [] ?_ ?_ ?_ ?_ ?_ ?_ ?_ ?_ (okIs_sound ?_) ?_ ?_ ?_ ?_ (okIs_sound ?_) ?_ (okIs_sound ?_) ?_) <;> decide +kernel
/-- Lane 0 of pack 0 runs in no slot. -/
def laneless (s : State) : State := s.modPack 0 (fun x => { x with lead := { x.lead with path := some ⟨8, 0xFFFE, none⟩ } })
def oneCopy : Copy := ⟨rBill, false, none, 0, [0, 0, 0, 0, 0], [1, 1, 1, 1, 1], 3, none, false, false, 0, true, 0, 0, []⟩
/-- A reducing copy whose part is number 7 of region 0. -/
def oneRed : Copy := { oneCopy with red := some .f32, parts := [⟨0, 7, false⟩] }
theorem wit_courierEvents (h : Obligations.CourierEvents) : Runs (.copyComplete 0) (sOp 1 .cpy (.copy oneCopy)) ∧
    Runs (.copyComplete 0) (sOp 1 .cpy (.copy { oneRed with parts := [⟨0, 7, true⟩] })) ∧
    Runs (.guardSlotRead 0) (sOpF .cpy (.copy { oneCopy with held := true, guard := some 2 }) (fun s => s.modPack 0 (fun x => { x with gs := x.gs.set 2 (some false) }))) ∧
    Runs (.cpyrPartApply 0 0) (sOpF .cpy (.copy oneRed) (fun s => { s with seqs := [(0, 0, 8, 7)] })) ∧
    Runs (.promiseCheck 0) (sOpF .cpy (.copy oneCopy) laneless) ∧ Runs (.sequenceEntryFree 3) { sOp 1 .cpy (.copy oneCopy) with seqs := [(5, 3, 8, 8)] } := by
  have no : ∀ k < 2, ¬ ∃ q, (((sOpF .cpy (.copy oneCopy) laneless).pack 0).slot k).path = some q ∧ q.mask &&& (1#16 <<< oneCopy.lane) ≠ 0 := by
    have : ∀ k < 2, (((sOpF .cpy (.copy oneCopy) laneless).pack 0).slot k).path.all (fun q => q.mask &&& (1#16 <<< oneCopy.lane) == 0) = true := by decide +kernel
    rintro k hk ⟨q, hq, hm⟩
    have := this k hk; rw [hq] at this; exact hm (eq_of_beq this)
  refine ⟨?_, ?_, ?_, ?_, ?_, ?_⟩
  · refine runs ((h (sOp 1 .cpy (.copy oneCopy)) 0 0 (oOp 1 .cpy (.copy oneCopy)) oneCopy ?_ ?_ ?_ ?_ ?_ ?_ ?_ ?_ ?_).1 ?_ ?_ ?_ ?_ ?_ ?_ ?_) <;> decide +kernel
  · refine runs ((h (sOp 1 .cpy (.copy { oneRed with parts := [⟨0, 7, true⟩] })) 0 0 (oOp 1 .cpy (.copy { oneRed with parts := [⟨0, 7, true⟩] }))
      { oneRed with parts := [⟨0, 7, true⟩] } ?_ ?_ ?_ ?_ ?_ ?_ ?_ ?_ ?_).2.1 ?_ ?_ ?_ ?_ ?_) <;> decide +kernel
  · refine runs ((h (sOpF .cpy (.copy { oneCopy with held := true, guard := some 2 }) (fun s => s.modPack 0 (fun x => { x with gs := x.gs.set 2 (some false) })))
      0 0 (oOp 1 .cpy (.copy { oneCopy with held := true, guard := some 2 })) { oneCopy with held := true, guard := some 2 } ?_ ?_ ?_ ?_ ?_ ?_ ?_ ?_ ?_).2.2.1 false
      ?_ ?_ ?_) <;> decide +kernel
  · refine runs ((h (sOpF .cpy (.copy oneRed) (fun s => { s with seqs := [(0, 0, 8, 7)] })) 0 0 (oOp 1 .cpy (.copy oneRed)) oneRed ?_ ?_ ?_ ?_ ?_ ?_ ?_ ?_ ?_).2.2.2.1
      0 .f32 ⟨0, 7, false⟩ 0 8 ?_ ?_ ?_ ?_ ?_ ?_ ?_ ?_) <;> decide +kernel
  · refine ⟨_, ((h (sOpF .cpy (.copy oneCopy) laneless) 0 0 (oOp 1 .cpy (.copy oneCopy)) oneCopy ?_ ?_ ?_ ?_ ?_ ?_ ?_ ?_ ?_).2.2.2.2.1 ?_ ?_).1
      (fun w => no 0 (by decide) w.1) (fun w => no 1 (by decide) w.1)⟩ <;> decide +kernel
  · refine ⟨_, (h { sOp 1 .cpy (.copy oneCopy) with seqs := [(5, 3, 8, 8)] } 0 0 (oOp 1 .cpy (.copy oneCopy)) oneCopy ?_ ?_ ?_ ?_ ?_ ?_ ?_ ?_ ?_).2.2.2.2.2 3 (5, 3, 8, 8) ?_⟩ <;> decide +kernel
/-- Lane 0 sleeps in the lead slot past the promise. -/
def sSleeps : State := sOpF .cpy (.copy oneCopy) (fun s => s.modPack 0 (fun x => { x with lead := { x.lead with stall := some .slpt }, gang := false }))
theorem wit_courierEvents_late (h : Obligations.CourierEvents) : Runs (.promiseCheck 0) sSleeps := by
  refine ⟨_, ((h sSleeps 0 0 (oOp 1 .cpy (.copy oneCopy)) oneCopy ?_ ?_ ?_ ?_ ?_ ?_ ?_ ?_ ?_).2.2.2.2.1 ?_ ?_).2
    ⟨⟨⟨8, 0xFFFF, none⟩, ?_, ?_⟩, .inl ?_⟩ ?_ ?_ ⟨?_, ?_⟩⟩ <;> decide +kernel
theorem okPair_sound {α β : Type} {r : M (α × β)} (d : α × β) (h : isOk r = true) : r = .ok ((okVal r d).1, (okVal r d).2) := okVal_sound d h
def iMma : Instr := .mma 7 false false false 1 389 0 64 4096 128
def iMzero : Instr := .mzero 7 7
def iMlda : Instr := .mlda 7 true .dflt 1 ⟨127, 511, 0⟩
def iMsta : Instr := .msta 7 true false .dflt 1 389 ⟨5, 511, 0⟩
def iWbld : Instr := .wbld 7 389 ⟨127, 511, 64⟩
/-- S5 holds `n`. -/
def withS5 (n : Nat) (x : Pack) : Pack := { x with s := x.s.set 5 (BitVec.ofNat 64 n) }
theorem wit_matrixEntries (h : Obligations.MatrixEntries) : Runs iMma (sAt iMma) ∧ Runs iMzero (sAt iMzero) ∧ Runs iMlda (sAt iMlda) ∧
    Runs iMsta (sAt iMsta) ∧ Runs iWbld (sPack 0 (withS5 16) iWbld) := by
  have go := fun (i : Instr) (f : Pack → Pack) (d : Fld) (m : MAddr) (a : Bool) (b : Bool) h0 h1 h2 h3 h4 =>
    h 7 false false false b a .dflt d 389 1 0 64 4096 128 m i (sPack 0 f i) (cxAt i (sPack 0 f i)) (stAt i (sPack 0 f i)) 0 h0 h1 h2 h3 h4
  refine ⟨?_, ?_, ?_, ?_, ?_⟩
  · refine runsO ((go iMma id 1 ⟨127, 511, 0⟩ true false (issuesAt_sound ?_) ?_ ?_ ?_ ?_).2.2.2.1 rfl ?_ ?_ ?_ ?_ ?_ ?_ ?_ ?_ ?_) <;> decide +kernel
  · refine runsO ((go iMzero id 7 ⟨127, 511, 0⟩ true false (issuesAt_sound ?_) ?_ ?_ ?_ ?_).1 rfl ?_ ?_) <;> decide +kernel
  · refine runsO ((go iMlda id 1 ⟨127, 511, 0⟩ true false (issuesAt_sound ?_) ?_ ?_ ?_ ?_).2.1 _ _ rfl ?_ (okPair_sound ([], []) ?_)) <;> decide +kernel
  · refine runsO ((go iMsta id 389 ⟨5, 511, 0⟩ false true (issuesAt_sound ?_) ?_ ?_ ?_ ?_).2.2.1 _ _ rfl ?_ (okPair_sound ([], []) ?_)) <;> decide +kernel
  · refine runsO ((go iWbld (withS5 16) 389 ⟨127, 511, 64⟩ false true (issuesAt_sound ?_) ?_ ?_ ?_ ?_).2.2.2.2.1 _ rfl
      ?_ ?_ ?_ ?_ ?_ ?_ ?_ (okVal_sound [] ?_)) <;> decide +kernel
theorem wit_matrixEntries_none (h : Obligations.MatrixEntries) : Runs iWbld (sAt iWbld) := by
  refine runsC ((h 7 false false false true false .dflt 389 389 1 0 64 4096 128 ⟨127, 511, 64⟩ iWbld (sAt iWbld) (cxAt iWbld (sAt iWbld)) (stAt iWbld (sAt iWbld)) 0
    (issuesAt_sound ?_) ?_ ?_ ?_ ?_).2.2.2.2.2 rfl ?_ ?_ ?_ ?_ ?_ ?_ ?_ ?_) <;> decide +kernel
def oneMma (n : Nat) (since : Option Nat) : MmaOp := ⟨[(0, 0xFFFF)], 1, 0, 0, 0, 64, 4096, 128, false, false, false, [], [], false, n, since, false⟩
def bMzero : Body := .mzero 1 [0, 1] false
def bMlda : Body := .mlda 1 [(0, 4096)] false true false
def bMsta : Body := .msta 1 [(0, 4096)] false true 5
def bWbld : Body := .wbld 4096 0 16
theorem wit_matrixEvents (h : Obligations.MatrixEvents) : Runs (.matrixPassGrant 0) (sOp 1 .mx (.mma (oneMma 1 none))) ∧
    Runs (.matrixEntryAged 0) (sOpF .mx (.mma (oneMma 1 (some 0))) (fun s => { s with clk := 2048 })) ∧ Runs (.mmaComplete 0) (sOp 1 .mx (.mma (oneMma 0 none))) ∧
    Runs (.tileRowComplete 0) (sOp 1 .mx bMzero) ∧ Runs (.tileRowComplete 0) (sOp 1 .mx bMlda) ∧ Runs (.tileRowComplete 0) (sOp 1 .mx bMsta) ∧
    Runs (.wbldComplete 0) (sOp 1 .mx bWbld) := by
  have go := fun (b : Body) h0 h1 h2 h3 h4 h5 h6 => h (sOp 1 .mx b) 0 0 (oOp 1 .mx b) h0 h1 h2 h3 h4 h5 h6
  refine ⟨?_, ?_, ?_, ?_, ?_, ?_, ?_⟩
  · refine ⟨_, (go (.mma (oneMma 1 none)) ?_ ?_ ?_ ?_ ?_ ?_ ?_).1 0 (oOp 1 .mx (.mma (oneMma 1 none))) ?_⟩ <;> decide +kernel
  · refine ⟨_, (h (sOpF .mx (.mma (oneMma 1 (some 0))) (fun s => { s with clk := 2048 })) 0 0 (oOp 1 .mx (.mma (oneMma 1 (some 0)))) ?_ ?_ ?_ ?_ ?_ ?_ ?_).2.1 (oneMma 1 (some 0)) 0 ?_ ?_ ?_ ?_⟩ <;> decide +kernel
  · refine runs ((go (.mma (oneMma 0 none)) ?_ ?_ ?_ ?_ ?_ ?_ ?_).2.2.1 (oneMma 0 none) rfl ?_ ?_ ?_) <;> decide +kernel
  · refine runs ((go bMzero ?_ ?_ ?_ ?_ ?_ ?_ ?_).2.2.2.1 1 [0, 1] false rfl ?_ ?_ ?_) <;> decide +kernel
  · refine runs ((go bMlda ?_ ?_ ?_ ?_ ?_ ?_ ?_).2.2.2.2.1 1 [(0, 4096)] false true false rfl ?_ ?_ ?_ ?_ ?_) <;> decide +kernel
  · refine runs ((go bMsta ?_ ?_ ?_ ?_ ?_ ?_ ?_).2.2.2.2.2.1 1 [(0, 4096)] false true 5 rfl ?_ ?_ ?_ ?_ ?_) <;> decide +kernel
  · refine runs ((go bWbld ?_ ?_ ?_ ?_ ?_ ?_ ?_).2.2.2.2.2.2 4096 0 16 rfl ?_ ?_ ?_ ?_ ?_ ?_ ?_) <;> decide +kernel
/-- Array 0 holds weights. -/
def withArray (s : State) : State := { s with arrays := [(0, ⟨0, .ready, 0, [], [], [], [], [], false⟩)] }
def sArr (i : Instr) : State := withArray (sAt i)
def iXcal : Instr := .xcal 7 389 390
def iXref : Instr := .xref 7 60 40 390
def iXmv : Instr := .xmv 7 64 40 390
theorem wit_crossbarIssues (h : Obligations.CrossbarIssues) : Runs iXcal (sArr iXcal) ∧ Runs iXref (sArr iXref) ∧ Runs iXmv (sArr iXmv) ∧
    Runs (.accept 7 60 40) (sAt (.accept 7 60 40)) := by
  refine ⟨?_, ?_, ?_, ?_⟩
  · refine runsV ((h 7 389 40 390 ⟨127, 511, 0⟩).2.1 (sArr iXcal) _ _ _ (issuesAt_sound ?_) ?_ ⟨?_, rfl⟩) <;> decide +kernel
  · refine runsV ((h 7 60 40 390 ⟨127, 511, 0⟩).2.2.1 (sArr iXref) _ _ _ (issuesAt_sound ?_) ?_ ⟨?_, rfl⟩) <;> decide +kernel
  · refine runs ((h 7 64 40 390 ⟨127, 511, 0⟩).2.2.2.1 (sArr iXmv) _ _ (issuesAt_sound ?_) ?_ ?_ ?_ ?_ ?_ ?_ ?_) <;> decide +kernel
  · refine runsC ((h 7 60 40 390 ⟨127, 511, 0⟩).2.2.2.2 (sAt (.accept 7 60 40)) _ _ (issuesAt_sound ?_)) <;> decide +kernel
/-! XPROG: a master copy in host memory, its weights and scales 0 and each of its column ranges 1. -/

theorem mapGet_absent {α : Type} (k : Nat) : ∀ m : NMap α, (∀ e ∈ m, e.1 ≠ k) → mapGet m k = none
  | [], _ => rfl
  | (k', v) :: m, h => by
    simp only [mapGet]
    rw [if_neg (Ne.symm (h (k', v) List.mem_cons_self))]
    split
    · rfl
    · exact mapGet_absent k m (fun e he => h e (List.mem_cons_of_mem _ he))
theorem mapGet_later {α : Type} (k : Nat) (b : NMap α) : ∀ m : NMap α, (∀ e ∈ m, e.1 < k) → mapGet (m ++ b) k = mapGet b k
  | [], _ => rfl
  | (k', v) :: m, h => by
    have h1 : k' < k := h (k', v) List.mem_cons_self
    simp only [List.cons_append, mapGet]
    rw [if_neg (by omega), if_neg (by omega)]
    exact mapGet_later k b m (fun e he => h e (List.mem_cons_of_mem _ he))
/-- Words with first byte 1 from `k`. -/
def ones (k a n : Nat) : NMap (BitVec 8) := (List.range' a n).map (fun c => (k + 4 * c, 1))
theorem mapGet_ones (k : Nat) : ∀ n a c, c < n → mapGet (ones k a n) (k + 4 * (a + c)) = some 1 := by
  intro n
  induction n with
  | zero => intro a c h; omega
  | succ n ih =>
    intro a c h
    simp only [ones, List.range'_succ, List.map_cons, mapGet]
    cases c with
    | zero => rw [if_pos (by omega)]
    | succ c =>
      rw [if_neg (by omega), if_neg (by omega)]
      have := ih (a + 1) c (by omega)
      rw [show a + (c + 1) = a + 1 + c by omega]
      exact this
theorem mem_ones {k a n : Nat} {e : Nat × BitVec 8} (h : e ∈ ones k a n) : ∃ c, e.1 = k + 4 * c := by
  obtain ⟨c, -, rfl⟩ := List.mem_map.1 h; exact ⟨c, rfl⟩
theorem stAt_same {i : Instr} {s : State} (h : i.sync = false) : stAt i s = s := by
  simp only [stAt, cxOf, h, Bool.false_and, Bool.false_eq_true, if_false]
  split
  · next e he =>
    revert he
    repeat' split
    all_goals (intro he; cases he <;> rfl)
  · rfl
/-- Host memory at 2^50. -/
def hXprog : Nat := busBase + 2 ^ 50
def iXprog : Instr := .xprog 7 389 ⟨127, 511, 0⟩
/-- Engine 0 reads host memory where the tables have it. -/
def sXprog : State :=
  let s := sAt iXprog
  { s with tlbs := ⟨.engine 0, 0, 0, 2 ^ 30, 2 ^ 50, true, true⟩ :: s.tlbs.filter (fun t => t.tc != .engine 0),
           mem := { s.mem with ram := s.mem.ram ++ ones (hXprog + 133120) 0 512 } }
def mXprog : PMap := (List.range 33).map (fun j => (j, hXprog / 4096 + j))
theorem mXprog_get (i : Nat) (h : i < 135168) : mXprog.get i = hXprog + i := by
  have : ∀ j < 33, mXprog.find? (fun e => e.1 == j) = some (j, hXprog / 4096 + j) := by decide +kernel
  have := this (i / 4096) (by omega)
  simp only [PMap.get, PMap.at, this, Option.map_some, Option.getD_some]
  have h1 : hXprog / 4096 = 2 ^ 48 + 2 ^ 38 := by decide
  have h2 : hXprog = 4096 * (2 ^ 48 + 2 ^ 38) := by decide
  omega
theorem sXprog_ram : ∀ e ∈ (sAt iXprog).mem.ram, e.1 < hXprog := by decide +kernel
theorem rdXprog (i : Nat) (h : i < 135168) : masterRd sXprog mXprog 0 i = mapRead 0 (ones (hXprog + 133120) 0 512) (hXprog + i) := by
  simp only [masterRd, Nat.zero_add, mXprog_get i h, memByte]
  rw [if_pos (show isBus (hXprog + i) = true from decide_eq_true (show busBase ≤ hXprog + i from by unfold hXprog; omega))]
  simp only [ramRead, sXprog, mapRead]
  rw [mapGet_later _ _ _ (fun e he => Nat.lt_of_lt_of_le (sXprog_ram e he) (by omega))]
  rfl
theorem rdXprog_zero (i : Nat) (h : i < 135168) (h2 : i < 133120 ∨ i % 4 ≠ 0) : masterRd sXprog mXprog 0 i = 0 := by
  rw [rdXprog i h, mapRead, mapGet_absent]
  · rfl
  · intro e he hk
    obtain ⟨c, hc⟩ := mem_ones he
    have : hXprog % 4 = 0 := by decide
    omega
theorem rdXprog_one (c : Nat) (h : c < 512) : masterRd sXprog mXprog 0 (133120 + 4 * c) = 1 := by
  rw [rdXprog _ (by omega), mapRead, show hXprog + (133120 + 4 * c) = hXprog + 133120 + 4 * (0 + c) by omega, mapGet_ones _ _ _ _ h]
  rfl
theorem masterXprog : masterOk (masterRd sXprog mXprog 0) = true := by
  have r4 : List.range 4 = [0, 1, 2, 3] := rfl
  simp only [masterOk, Bool.and_eq_true, List.all_eq_true, List.mem_range]
  constructor
  · intro r hr c hc
    rw [weightAt, rdXprog_zero _ (by omega) (.inl (by omega))]
    simp
  · intro c hc
    have h1 : columnWord (masterRd sXprog mXprog 0) 131072 c = 0 := by
      simp only [columnWord, r4, List.map_cons, List.map_nil]
      rw [rdXprog_zero _ (by omega) (.inl (by omega)), rdXprog_zero _ (by omega) (.inl (by omega)), rdXprog_zero _ (by omega) (.inl (by omega)),
        rdXprog_zero _ (by omega) (.inl (by omega))]
      decide
    have h2 : columnWord (masterRd sXprog mXprog 0) 133120 c = 1 := by
      simp only [columnWord, r4, List.map_cons, List.map_nil, Nat.add_zero]
      rw [rdXprog_one c hc, rdXprog_zero _ (by omega) (.inr (by omega)), rdXprog_zero _ (by omega) (.inr (by omega)), rdXprog_zero _ (by omega) (.inr (by omega))]
      decide
    rw [h1, h2]; decide
theorem wit_xprog (h : Obligations.CrossbarIssues) : Runs iXprog sXprog := by
  have act : (stAt iXprog sXprog).acting (cxAt iXprog sXprog) 7 = [0] := by decide +kernel
  have st : stAt iXprog sXprog = sXprog := stAt_same rfl
  refine runsV ((h 7 389 389 389 ⟨127, 511, 0⟩).1 sXprog (cxAt iXprog sXprog) (stAt iXprog sXprog) _ (issuesAt_sound ?_) ?_
    ⟨fun _ => mXprog, ?_, ?_, fun p hp => by
      rw [act] at hp; obtain rfl := List.mem_singleton.1 hp
      rw [st]
      have ea : (sXprog.pack 0).ea ⟨127, 511, 0⟩ 0 = 0 := by decide +kernel
      rw [ea]
      refine ⟨rfl, okIs_sound (by decide +kernel), by decide +kernel, masterXprog, ?_⟩
      have : sXprog.mem.poison = [] := by decide +kernel
      simp [poisonIn, poisoned, this, mapGet], rfl⟩) <;> decide +kernel
def iTbind (o : BitVec 16) : Instr := .tbind 7 true 15 389 ⟨127, 511, o⟩
theorem wit_tbind (h : Obligations.TablesPostAndJobsIssue) : Runs (iTbind 0) (sAt (iTbind 0)) ∧ Runs (iTbind 64) (sAt (iTbind 64)) := by
  constructor
  · refine runsC ((h.1 7 true 15 0 389 4 390 391 ⟨127, 511, 0⟩ 0).1 (sAt (iTbind 0)) _ _ [] (issuesAt_sound ?_) ?_ ?_ ?_ ?_ ?_ ?_ ?_) <;> decide +kernel
  · refine runsV ((h.1 7 true 15 0 389 4 390 391 ⟨127, 511, 64⟩ 0).2.1 (sAt (iTbind 64)) _ _ _ (issuesAt_sound ?_) ?_
      ⟨[], _, ?_, ?_, ?_, ?_, okVal_sound [] ?_, rfl⟩) <;> decide +kernel
/-- Slot 15 is bound to row 0 with 16-bit entries, slot 2 with 8-bit ones. -/
def withBinds (s : State) : State :=
  { s with launches := s.launches.map (fun l => { l with tbinds := (l.tbinds.set 15 (some ⟨0, true, 1, 1⟩)).set 2 (some ⟨0, false, 1, 1⟩) }) }
def sBind (i : Instr) : State := withBinds (sAt i)
def iTq : Instr := .tq 7 1 8 4 15
def iTqm : Instr := .tqm 7 3 8 4 6 2
def iPost : Instr := .post 7 389 ⟨127, 511, 64⟩
theorem wit_queriesAndPost (h : Obligations.TablesPostAndJobsIssue) : Runs iTq (sBind iTq) ∧ Runs iTqm (sBind iTqm) ∧ Runs iPost (sAt iPost) := by
  refine ⟨?_, ?_, ?_⟩
  · refine runsV ((h.1 7 true 15 1 8 4 15 2 ⟨127, 511, 0⟩ 0).2.2.1.1 ⟨0, true, 1, 1⟩ (sBind iTq) _ _ _ (issuesAt_sound ?_) ?_
      ⟨?_, ?_, fun o ho => absurd ((show (stAt iTq (sBind iTq)).ops = [] from by decide +kernel) ▸ ho) List.not_mem_nil, ?_, ?_, rfl⟩) <;> decide +kernel
  · refine runsV ((h.1 7 true 15 3 8 4 6 2 ⟨127, 511, 0⟩ 0).2.2.1.2 ⟨0, false, 1, 1⟩ (sBind iTqm) _ _ _ (issuesAt_sound ?_) ?_
      ⟨?_, ?_, fun o ho => absurd ((show (stAt iTqm (sBind iTqm)).ops = [] from by decide +kernel) ▸ ho) List.not_mem_nil, ?_, ?_, rfl⟩) <;> decide +kernel
  · refine runsV ((h.1 7 true 15 0 389 4 390 391 ⟨127, 511, 64⟩ 0).2.2.2 (sAt iPost) _ _ _ (issuesAt_sound ?_) ?_
      ⟨_, ?_, okVal_sound [] ?_, .inl ?_, rfl⟩) <;> decide +kernel
/-- A FILL job of one word at 4,096. -/
def rFill : BitVec 512 := BitVec.ofNat 512 (4096 + 4 * 2 ^ 60 + 2 ^ 416)
def iNlaunch : Instr := .nlaunch 7 true true 3 2 ⟨127, 511, 64⟩
def sNlaunch : State := withRam (bytesAt 64 rFill.toNat 64) (sAt iNlaunch)
theorem wit_nlaunch (h : Obligations.TablesPostAndJobsIssue) : Runs iNlaunch sNlaunch := by
  refine runsC (h.2 7 true true 3 2 ⟨127, 511, 64⟩ 0 [] sNlaunch _ _ _ _ [] (issuesAt_sound ?_) ?_ ?_ ?_ ?_ (okVal_sound [] ?_) ?_ ?_ ?_ ?_
    (okVal_sound [] ?_) ?_ (okIs_sound ?_) ?_ ?_ (.inl ?_)) <;> decide +kernel
def hasArray (s : State) : State := { s with arrays := [(3, ⟨0, .ready, 0, [], [], [], [], [], false⟩)] }
def inDet (s : State) : State := hasArray { s with launches := s.launches.map (launchWith (2 ^ 111)) }
def bXprog : Body := .xprog 3 0 [] [] [] false
def bXref : Body := .xref 3 [] 60
def bXmv : Body := .xmv 3 [] 32 true 0 [0]
def bTbind : Body := .tbind 15 ⟨0, true, 1, 1⟩ 4096
def bTq (w : Bool) : Body := .tq ⟨0, w, 1, 1⟩ [(0, [1, 2, 3, 4])] 8
theorem wit_arrayAndTableEvents (h : Obligations.ArrayAndTableEvents) : Runs (.xprogDone 0) (sOp 1 .mx bXprog) ∧
    Runs (.xcalDone 0) (sOpF .mx (.xcal 3 5) hasArray) ∧ Runs (.xrefDone 0) (sOpF .mx bXref hasArray) ∧ Runs (.xmvPassDone 0) (sOpF .mx bXmv inDet) ∧
    Runs (.tbindCopyDone 0) (sOp 1 .tq bTbind) ∧ Runs (.tqDone 0) (sOp 1 .tq (bTq true)) := by
  refine ⟨?_, ?_, ?_, ?_, ?_, ?_⟩
  · refine (((h (sOp 1 .mx bXprog) 0 0 (oOp 1 .mx bXprog) ?_ ?_ ?_ ?_ ?_ ?_).2.2.1 ?_).1 3 0 [] [] [] false rfl ?_).imp (fun _ ⟨_, _, e, _⟩ => e) <;> decide +kernel
  · refine (((h (sOpF .mx (.xcal 3 5) hasArray) 0 0 (oOp 1 .mx (.xcal 3 5)) ?_ ?_ ?_ ?_ ?_ ?_).2.2.1 ?_).2 3 5 ⟨0, .ready, 0, [], [], [], [], [], false⟩ rfl ?_ ?_ ?_).imp (fun _ ⟨_, _, _, e, _⟩ => e) <;> decide +kernel
  · refine runs ((h (sOpF .mx bXref hasArray) 0 0 (oOp 1 .mx bXref) ?_ ?_ ?_ ?_ ?_ ?_).2.2.2.1 3 [] 60 ⟨0, .ready, 0, [], [], [], [], [], false⟩ rfl ?_ ?_ ?_) <;> decide +kernel
  · refine runs ((h (sOpF .mx bXmv inDet) 0 0 (oOp 1 .mx bXmv) ?_ ?_ ?_ ?_ ?_ ?_).2.2.2.2.1 3 [] 32 true 0 [0] ⟨0, .ready, 0, [], [], [], [], [], false⟩ rfl ?_ ?_ ?_ ?_ ?_ ?_ (by
        have : (sOpF .mx bXmv inDet).mem.poison = [] := by decide +kernel
        simp [poisonIn, poisoned, this, mapGet])) <;> decide +kernel
  · refine runs ((h (sOp 1 .tq bTbind) 0 0 (oOp 1 .tq bTbind) ?_ ?_ ?_ ?_ ?_ ?_).2.2.2.2.2.2.1 15 ⟨0, true, 1, 1⟩ 4096 rfl ?_ ?_ ?_ ?_ ?_) <;> decide +kernel
  · refine runs ((h (sOp 1 .tq (bTq true)) 0 0 (oOp 1 .tq (bTq true)) ?_ ?_ ?_ ?_ ?_ ?_).2.2.2.2.2.2.2 ⟨0, true, 1, 1⟩ [(0, [1, 2, 3, 4])] 8 rfl) <;> decide +kernel
/-- The operations have acted; only their decrements are to come. -/
def acted (s : State) : State := { s with ops := s.ops.map (fun o => { o with acted := true }) }
theorem wit_acted (h : Obligations.ArrayAndTableEvents) : Runs (.xprogDone 0) (sOpF .mx bXprog acted) ∧ Runs (.xcalDone 0) (sOpF .mx (.xcal 3 5) acted) := by
  constructor
  · refine ⟨_, (h (sOpF .mx bXprog acted) 0 0 { oOp 1 .mx bXprog with acted := true } ?_ ?_ ?_ ?_ ?_ ?_).1 3 0 [] [] [] false rfl ?_ rfl⟩ <;> decide +kernel
  · refine ⟨_, (h (sOpF .mx (.xcal 3 5) acted) 0 0 { oOp 1 .mx (.xcal 3 5) with acted := true } ?_ ?_ ?_ ?_ ?_ ?_).2.1 3 5 rfl ?_ rfl⟩ <;> decide +kernel
/-- An XMV of a launch that is not .det: its array stale; else, whatever reference codes are measured, either clause holds. -/
theorem wit_xmv (h : Obligations.ArrayAndTableEvents) : ∀ st ∈ [XState.stale, .ready],
    Runs (.xmvPassDone 0) (sOpF .mx bXmv (fun s => { s with arrays := [(3, ⟨0, st, 0, [], [], [], [], [], false⟩)] })) := by
  intro st hst
  have go := fun h0 h1 h2 h3 h4 h5 h6 h7 h8 => (h (sOpF .mx bXmv (fun s => { s with arrays := [(3, ⟨0, st, 0, [], [], [], [], [], false⟩)] })) 0 0
    (oOp 1 .mx bXmv) h0 h1 h2 h3 h4 h5).2.2.2.2.2.1 3 [] 32 true 0 [0] ⟨0, st, 0, [], [], [], [], [], false⟩ rfl h6 h7 h8
  simp only [List.mem_cons, List.not_mem_nil, or_false] at hst
  rcases hst with rfl | rfl
  · refine runs ((go ?_ ?_ ?_ ?_ ?_ ?_ ?_ ?_ ?_).1 (.inl rfl)) <;> decide +kernel
  · by_cases hoff : (List.range 4).filter (fun j => decide (3 < (refCode ⟨0, .ready, 0, [], [], [], [], [], false⟩
        (sOpF .mx bXmv (fun s => { s with arrays := [(3, ⟨0, .ready, 0, [], [], [], [], [], false⟩)] })).fresh j - idealRef [] j).natAbs)) = []
    · refine runsU ((go ?_ ?_ ?_ ?_ ?_ ?_ ?_ ?_ ?_).2 (by decide) hoff rfl rfl) <;> decide +kernel
    · refine runs ((go ?_ ?_ ?_ ?_ ?_ ?_ ?_ ?_ ?_).1 (.inr hoff)) <;> decide +kernel
/-- A job whose record is `r`, at stage `st`. -/
def oneJob (r : BitVec 512) (st : JStage) : Job := ⟨r, some 3, some 2, st, false, 0, 0, 0, 0, false, 0, 0, 0, 0, []⟩
/-- A record of kind `k`, its arguments at 4,096. -/
def rJob (k : Nat) : BitVec 512 := BitVec.ofNat 512 (4096 + k * 2 ^ 60 + 4096 * 2 ^ 64 + 4096 * 2 ^ 128 + 4096 * 2 ^ 192 + 2 ^ 352 + 16 * 2 ^ 384 + 2 ^ 416 + 2 ^ 480)
def jPart : Job := { oneJob (rJob 3) .running with parts := [⟨0, 7, false⟩] }
/-- Guard slot 2 of pack 0 holds true. -/
def guardTrue (s : State) : State := s.modPack 0 (fun x => { x with gs := x.gs.set 2 (some true) })
def jWaits : Job := { oneJob (rJob 4) .held with guard := none }
theorem wit_cellarEvents (h : Obligations.CellarEvents) : Runs (.cellarJobStart 0) (sOp 1 .nm (.job (oneJob (rJob 4) .queued))) ∧
    Runs (.guardSlotRead 0) (sOpF .nm (.job (oneJob (rJob 4) .held)) guardTrue) ∧ Runs (.guardSlotRead 0) (sOp 1 .nm (.job jWaits)) ∧
    Runs (.cellarDot 0) (sOp 1 .nm (.job (oneJob (rJob 0) .running))) ∧ Runs (.cellarSegsum 0) (sOp 1 .nm (.job (oneJob (rJob 1) .running))) ∧
    Runs (.cellarAdamw 0) (sOp 1 .nm (.job (oneJob (rJob 2) .running))) ∧ Runs (.cellarFill 0) (sOp 1 .nm (.job (oneJob (rJob 4) .running))) ∧
    Runs (.cellarRapply 0 0) (sOpF .nm (.job jPart) (fun s => { s with seqs := [(0, 0, 8, 7)] })) ∧
    Runs (.cellarJobComplete 0) (sOp 1 .nm (.job (oneJob (rJob 4) .computed))) := by
  have go := fun (f : State → State) (j : Job) => h (sOpF .nm (.job j) f) 0 (oOp 1 .nm (.job j)) j
  refine ⟨?_, ?_, ?_, ?_, ?_, ?_, ?_, ?_, ?_⟩
  · refine runs ((go id (oneJob (rJob 4) .queued) ?_ ?_ ?_ ?_ ?_ ?_).1 rfl ?_) <;> decide +kernel
  · refine runs ((go guardTrue (oneJob (rJob 4) .held) ?_ ?_ ?_ ?_ ?_ ?_).2.1 0 2 true rfl rfl ?_ rfl ?_) <;> decide +kernel
  · refine runs ((go id jWaits ?_ ?_ ?_ ?_ ?_ ?_).2.2.1 0 rfl rfl ?_ rfl ?_) <;> decide +kernel
  · refine runs ((go id (oneJob (rJob 0) .running) ?_ ?_ ?_ ?_ ?_ ?_).2.2.2.1.1 rfl ?_) <;> decide +kernel
  · refine runs ((go id (oneJob (rJob 1) .running) ?_ ?_ ?_ ?_ ?_ ?_).2.2.2.1.2.1 rfl ?_) <;> decide +kernel
  · refine runs ((go id (oneJob (rJob 2) .running) ?_ ?_ ?_ ?_ ?_ ?_).2.2.2.1.2.2.1 rfl ?_) <;> decide +kernel
  · refine runs ((go id (oneJob (rJob 4) .running) ?_ ?_ ?_ ?_ ?_ ?_).2.2.2.1.2.2.2 rfl ?_) <;> decide +kernel
  · refine runs ((go (fun s => { s with seqs := [(0, 0, 8, 7)] }) jPart ?_ ?_ ?_ ?_ ?_ ?_).2.2.2.2.1 0 ⟨0, 7, false⟩ 0 8 rfl ?_ ?_) <;> decide +kernel
  · refine runs ((go id (oneJob (rJob 4) .computed) ?_ ?_ ?_ ?_ ?_ ?_).2.2.2.2.2 0 rfl rfl rfl ?_) <;> decide +kernel
/-! ### Queues, launches and graphs -/

/-- Queue 0 enabled with one entry `e`, whose LAUNCH record stands at 128 and whose graph, of one EVENT node, at 512. -/
def rLaunch : Nat := 8 * 2 ^ 64 + 32 * 2 ^ 96 + 2 ^ 128 + 2 ^ 160 + 2 ^ 176 + 16 * 2 ^ 192 + 2 ^ 208 + 2 ^ 224
def sQueue (e : Nat) : State :=
  let s := withRam (bytesAt 64 e 64 ++ bytesAt 128 rLaunch 128 ++ bytesAt 512 1 64 ++ bytesAt 576 5 64) (sAt (.nop 7))
  { s with queues := s.queues.set 0 { base := 64, ctl := 128, tail := 1, since := some 0 }, clk := 2 ^ 20, dev := { s.dev with bootstat := 5 } }
theorem halting_any {s : State} (h : ∀ k < 4, s.halting k = false) (n : Nat) : s.halting (n % 4) = false := h _ (Nat.mod_lt _ (by decide))
/-- What the command processor reads through. -/
def cpMap (s : State) (q pasid va n : Nat) : PMap := okVal (probe s .l2 (Config.queuePart q % 4) pasid (queueWaiter q) (pagesOf va n false)) []
theorem cpRead_of {s : State} {q pasid va n : Nat} {m : PMap} (hm : probe s .l2 (Config.queuePart q % 4) pasid (queueWaiter q) (pagesOf va n false) = .ok m)
    (h2 : s.mem.windows = []) (h3 : anyClosed s (physRanges m [(va, n)]) = false) (h4 : behindRelay s (physRanges m [(va, n)]) = false) :
    cpRead s q pasid va n = .ok (s, vNat s m va n) := by
  have hw : ∀ w, closeWindow s w = s := fun w => by simp [closeWindow, h2, mapGet]
  have hc : ∀ ls, closeWindows s ls = s := fun ls => by
    induction ls with
    | nil => rfl
    | cons a ls ih => rw [closeWindows, List.foldl_cons, hw]; exact ih
  simp only [cpRead, hm, bind, Except.bind, waitIf, h3, h4, hc, Bool.or_self]
  rfl
/-- The bytes that the command processor reads. -/
def cpVal (s : State) (q pasid va n : Nat) : Nat := vNat s (cpMap s q pasid va n) va n
def cpOk (s : State) (q pasid va n : Nat) : Bool :=
  let foot := physRanges (cpMap s q pasid va n) [(va, n)]
  isOk (probe s .l2 (Config.queuePart q % 4) pasid (queueWaiter q) (pagesOf va n false)) && s.mem.windows == [] && anyClosed s foot == false &&
    behindRelay s foot == false
theorem cpRead_val {s : State} {q pasid va n : Nat} (h : cpOk s q pasid va n = true) : cpRead s q pasid va n = .ok (s, cpVal s q pasid va n) := by
  simp only [cpOk, Bool.and_eq_true, beq_iff_eq] at h
  exact cpRead_of (okVal_sound [] h.1.1.1) h.1.1.2 h.1.2 h.2
theorem cpRead_is {s : State} {q pasid va n v : Nat} (h : cpOk s q pasid va n = true) (hv : cpVal s q pasid va n = v) : cpRead s q pasid va n = .ok (s, v) := hv ▸ cpRead_val h
/-- Queue 0 is served next where it alone is enabled and its entry may start. -/
theorem nextQueue_zero {s : State} (h1 : ∀ q < 64, q ≠ 0 → (s.queue q).en = false) (h2 : canStart s 0 = true) : nextQueue s = some 0 := by
  have hc : (List.range 64).filter (canStart s) = [0] := by
    rw [List.filter_congr (q := fun q => q == 0)]
    · decide
    · intro q hq
      by_cases h : q = 0
      · subst h; simpa using h2
      · simp [canStart, h1 q (List.mem_range.1 hq) h, h]
  by_cases ho : (s.queue 0).overdue s.clk.toNat = true <;> simp [nextQueue, hc, ho]
theorem canStart_zero {s : State} (h1 : (s.queue 0).en = true) (h2 : (s.queue 0).head ≠ (s.queue 0).tail) (h3 : bitsAt s.dev.bootstat 0 4 = 5)
    (h4 : cpOk s 0 (s.queue 0).pasid (s.queue 0).headAddr 64 = true)
    (h5 : eFence (BitVec.ofNat 512 (cpVal s 0 (s.queue 0).pasid (s.queue 0).headAddr 64)) = false) (h6 : ∀ k < 4, s.halting k = false) : canStart s 0 = true := by
  simp only [canStart, headEntry, cpRead_val h4, h5, halting_any h6, h1, h3]
  simp [h2]
theorem next_sQueue {e : Nat} (h1 : ∀ q < 64, q ≠ 0 → ((sQueue e).queue q).en = false) (h4 : cpOk (sQueue e) 0 ((sQueue e).queue 0).pasid ((sQueue e).queue 0).headAddr 64 = true)
    (h2 : ((sQueue e).queue 0).en = true ∧ ((sQueue e).queue 0).head ≠ ((sQueue e).queue 0).tail ∧ bitsAt (sQueue e).dev.bootstat 0 4 = 5)
    (h5 : eFence (BitVec.ofNat 512 (cpVal (sQueue e) 0 ((sQueue e).queue 0).pasid ((sQueue e).queue 0).headAddr 64)) = false) (h6 : ∀ k < 4, (sQueue e).halting k = false) :
    nextQueue (sQueue e) = some 0 ∧ canStart (sQueue e) 0 = true :=
  have hc := canStart_zero h2.1 h2.2.1 h2.2.2 h4 h5 h6
  ⟨nextQueue_zero h1 hc, hc⟩
theorem next_nop : nextQueue (sQueue 0) = some 0 ∧ canStart (sQueue 0) 0 = true :=
  by refine next_sQueue ?_ ?_ ?_ ?_ ?_ <;> decide +kernel
theorem wit_queueEvents (h : Obligations.QueueEvents) : Runs (.qtailWrite 0 7) (sQueue 0) ∧ Runs (.qtailWrite 0 17) (sQueue 0) ∧
    Runs (.queueStarvationTimeout 0) (sQueue 0) ∧ Runs (.commandNop 0) (sQueue 0) ∧ Runs (.commandNop 0) (sQueue (3 * 2 ^ 64)) := by
  refine ⟨?_, ?_, ?_, ?_, ?_⟩
  · refine runs (((h (sQueue 0) 0 7 ?_ ?_ ?_).1 ?_).2 ?_) <;> decide +kernel
  · refine ⟨_, ((h (sQueue 0) 0 17 ?_ ?_ ?_).1 ?_).1 ?_⟩ <;> decide +kernel
  · refine runs ((h (sQueue 0) 0 7 ?_ ?_ ?_).2.1 0 ?_ next_nop.2 ?_ ?_) <;> decide +kernel
  · refine runs (((h (sQueue 0) 0 7 ?_ ?_ ?_).2.2 _ next_nop.1 (cpRead_val ?_)).1
      ?_ ?_) <;> decide +kernel
  · refine runs (((h (sQueue (3 * 2 ^ 64)) 0 7 ?_ ?_ ?_).2.2 _
      (next_sQueue ?_ ?_ ?_ ?_ ?_).1 (cpRead_val ?_)).2.1
      ?_ ?_) <;> decide +kernel
def sLaunchQ : State := sQueue (2 ^ 64 + 128)
theorem wit_commandLaunch (h : Obligations.QueueEvents) : Runs (.commandLaunch 0) sLaunchQ := by
  refine runs (((h sLaunchQ 0 7 ?_ ?_ ?_).2.2 (2 ^ 64 + 128)
    (next_sQueue ?_ ?_ ?_ ?_ ?_).1
    (cpRead_is ?_ ?_)).2.2.1 rLaunch 0 [] ?_ ?_ (cpRead_is ?_ ?_)
    (cpRead_is ?_ ?_) (okIs_sound ?_) ?_ ?_ (.inr ?_)) <;> decide +kernel
theorem recordOk_rLaunch : recordOk (BitVec.ofNat 1024 rLaunch) = true := by decide +kernel
def sReplayQ : State := sQueue (2 * 2 ^ 64 + 512)
/-- Four replays of the object pend already; and a replay of no legal graph. -/
def sReplayFull : State := { sReplayQ with replays := List.replicate 4 ⟨0, 0, 512, 1, [], true, false, 0, 0⟩ }
def sReplayBad : State := sQueue (2 * 2 ^ 64 + 1024)
def nodeEv : Node := ⟨5, 0, 0, .idle, 0, none⟩
theorem next_full : nextQueue sReplayFull = some 0 :=
  by refine nextQueue_zero ?_ (canStart_zero ?_ ?_ ?_ ?_ ?_ ?_) <;> decide +kernel
theorem wit_commandReplay (h : Obligations.QueueEvents) : Runs (.commandReplay 0) sReplayFull ∧ Runs (.commandReplay 0) sReplayBad ∧ Runs (.commandReplay 0) sReplayQ := by
  refine ⟨?_, ?_, ?_⟩
  · refine runs ((((h sReplayFull 0 7 ?_ ?_ ?_).2.2 (2 * 2 ^ 64 + 512) next_full
      (cpRead_is ?_ ?_)).2.2.2 1 ?_ ?_ (cpRead_is ?_ ?_)).1 ?_ ?_) <;> decide +kernel
  · refine runs ((((h sReplayBad 0 7 ?_ ?_ ?_).2.2 (2 * 2 ^ 64 + 1024)
      (next_sQueue ?_ ?_ ?_ ?_ ?_).1 (cpRead_is ?_ ?_)).2.2.2
      0 ?_ ?_ (cpRead_is ?_ ?_)).2.1 ?_ ?_ (.inr ?_)) <;> decide +kernel
  · have hr : ∀ a n v, cpOk sReplayQ 0 (sReplayQ.queue 0).pasid a n = true → cpVal sReplayQ 0 (sReplayQ.queue 0).pasid a n = v →
        cpRead sReplayQ 0 (sReplayQ.queue 0).pasid a n = .ok (sReplayQ, v) := fun _ _ _ h h' => cpRead_is h h'
    have go := fun h0 h1 h2 h3 h4 h5 h6 h7 h8 h9 h10 h11 h12 h13 => ((h sReplayQ 0 7 h0 h1 h2).2.2 (2 * 2 ^ 64 + 512)
      (next_sQueue h3 h4 h5 h6 h7).1 (hr _ _ _ h8 h9)).2.2.2 1 h10 h11 (hr _ _ _ h12 h13)
    have e2 : ePtr (BitVec.ofNat 512 (2 * 2 ^ 64 + 512)) = 512 := by decide +kernel
    have e1 : hNnode (BitVec.ofNat 512 1) = 1 := by decide +kernel
    have e3 : eNpatch (BitVec.ofNat 512 (2 * 2 ^ 64 + 512)) = 0 := by decide +kernel
    have h1 := hr 576 64 5 (by decide +kernel) (by decide +kernel)
    have h0 := hr 0 0 0 (by decide +kernel) (by decide +kernel)
    have h5 : nArg (5#512) = 0 ∧ argBytes (5#512) = 0 := by decide +kernel
    refine runs ((go ?_ ?_ ?_ ?_ ?_ ?_ ?_ ?_ ?_ ?_ ?_ ?_ ?_ ?_).2.2 [5] [nodeEv] [] [nodeEv] ?_ ?_ ?_
      (by
        rw [e1, e2]
        simp only [show (List.range 1).map (fun i => 512 + 64 * (i + 1)) = [576] from rfl, cpList, cpTry, h1, bind, Except.bind]
        rfl)
      ?_
      (by
        simp only [List.map_cons, List.map_nil, cpNodes, cpTry, h5, h0, bind, Except.bind]
        rfl)
      (by rw [e3]; rfl) ?_ ?_) <;> decide +kernel
/-- A launch of one block of `x` by `y` threads, standing at `st`; nothing else is on the device. -/
def launchOf' (x y : Nat) (st : LStat) : Launch :=
  { newLaunch (sAt (.nop 7)) 0 none 0 128 (BitVec.ofNat 1024 (8 * 2 ^ 64 + 32 * 2 ^ 96 + 2 ^ 128 + 2 ^ 160 + 2 ^ 176 + x * 2 ^ 192 + y * 2 ^ 208 + 2 ^ 224)) 0 with part := 0, stat := st }
def sPlace (x y : Nat) (st : LStat) : State := { sAt (.nop 7) with packs := [], blocks := [], ops := [], launches := [launchOf' x y st], clk := 65536 }
/-- A block of another launch has every core full. -/
def sFull (x y : Nat) : State :=
  let s := sPlace x y .running
  { s with launches := s.launches ++ [{ launchOf' 16 1 .running with nextBlock := 1 }], blocks := [{ launch := 1, b := 0, cores := List.range 64, perCore := 256, npacks := 16384 }] }
theorem wit_blockEvents (h : Obligations.BlockEvents) : Runs (.windowFreeAdmit 0) (sPlace 16 1 .window) ∧ Runs (.blockPlace 0 63) (sPlace 16 1 .running) ∧
    Runs (.caravanPlace 0 [4, 9]) (sPlace 2056 2 .running) ∧ Runs (.blockWaitTimeout 0 [5]) (sFull 16 1) ∧ Runs (.caravanWaitTimeout 0 [4, 9]) (sFull 2056 2) := by
  refine ⟨?_, ?_, ?_, ?_, ?_⟩
  · refine ⟨_, (h (sPlace 16 1 .window) 0 ?_).1 ?_ ?_ ?_ ?_⟩ <;> decide +kernel
  · refine runs (((h (sPlace 16 1 .running) 0 ?_).2.1 [63] ?_ ?_ ?_ ?_).1 63 rfl ?_) <;> decide +kernel
  · refine runs (((h (sPlace 2056 2 .running) 0 ?_).2.1 [4, 9] ?_ ?_ ?_ ?_).2 ?_) <;> decide +kernel
  · refine ⟨_, ((h (sFull 16 1) 0 ?_).2.2 [5] ?_ ?_ ?_ ?_ ?_).1
      ?_ ?_⟩ <;> decide +kernel
  · refine ⟨_, ((h (sFull 2056 2) 0 ?_).2.2 [4, 9] ?_ ?_ ?_ ?_ ?_).2
      (.inr ?_)⟩ <;> decide +kernel
/-- Ring 0 enabled, its records at 1,024 and one waiting; the first one of its count came at clock 0. -/
def sRing : State :=
  let s := sAt (.nop 7)
  { s with rings := s.rings.set 0 { base := 1024, ctl := 16, coal := 0x10001, first := some 0 }, records := [⟨0, 0, none⟩], clk := 1500, dev := { s.dev with bootstat := 5 } }
theorem wit_rings (h : Obligations.RingsAndGraphs) : Runs (.rheadWrite 0 7) sRing ∧ Runs (.eventRecordWrite 0) sRing ∧ Runs (.ringCoalesceTimeout 0) sRing := by
  refine ⟨?_, ?_, ?_⟩
  · refine ⟨_, (h.1 sRing 0 7 ?_ ?_).1 ?_⟩ <;> decide +kernel
  · refine runsU ((h.1 sRing 0 7 ?_ ?_).2.1 ⟨0, 0, none⟩ _ ?_ ?_ ?_
      (okVal_sound [] ?_) ?_) <;> decide +kernel
  · refine ⟨_, (h.1 sRing 0 7 ?_ ?_).2.2 0 ?_ ?_ ?_⟩ <;> decide +kernel
/-- A running replay whose node 0 is `raw`, at `st`, with its record `arg`; node 1 waits. -/
def sGraph (raw : BitVec 512) (arg : BitVec 1024) (st : NStat) (two : NStat) : State :=
  { sAt (.nop 7) with replays := [⟨0, 0, 512, 2, [⟨raw, arg, 0, st, 0, none⟩, ⟨5, 0, 0, two, 0, none⟩], true, false, 0, 0⟩] }
def rNode (k arg val dst : Nat) : BitVec 512 := BitVec.ofNat 512 (k + arg * 2 ^ 192 + val * 2 ^ 256 + dst * 2 ^ 320)
theorem wit_graphs (h : Obligations.RingsAndGraphs) :
    Runs (.nodeKernel 0 0) (sGraph (rNode 0 128 0 0) 0 .ready .idle) ∧
    Runs (.nodeCellar 0 0) (sGraph (rNode 1 8 0 0) 0 .ready .idle) ∧ Runs (.nodeCellar 0 0) (sGraph (rNode 1 64 0 0) (rFill.setWidth 1024) .ready .idle) ∧
    Runs (.nodeCopy 0 0) (sGraph (rNode 2 64 8 128) 0 .ready .idle) := by
  have go := fun (raw : BitVec 512) (arg : BitVec 1024) h1 h2 h3 => h.2 (sGraph raw arg .ready .idle) 0 0 h1 h2 h3
  refine ⟨?_, ?_, ?_, ?_⟩
  · refine ⟨_, (go (rNode 0 128 0 0) 0 ?_ ?_ ?_).1 _ _ ?_ ?_
      (halting_any ?_ _) (okPair_sound (State.reset, 0) ?_)⟩ <;> decide +kernel
  · refine ⟨_, ((go (rNode 1 8 0 0) 0 ?_ ?_ ?_).2.1 ?_ ?_).1 (.inl ?_)⟩ <;> decide +kernel
  · refine runsU ((((go (rNode 1 64 0 0) (rFill.setWidth 1024) ?_ ?_ ?_).2.1 ?_ ?_).2.2
      _ ?_ (okIs_sound ?_) ?_ (okVal_sound [] ?_)).2 [] ?_ ?_ (okIs_sound ?_) ?_) <;> decide +kernel
  · refine ⟨_, ((go (rNode 2 64 8 128) 0 ?_ ?_ ?_).2.2.1 _ ?_ ?_
      (okVal_sound [] ?_) ?_ ?_).2 ?_⟩ <;> decide +kernel
/-- A copy node whose destination lies in a peer window that no port serves. -/
def sCut : State :=
  let s := sGraph (rNode 2 64 8 8192) 0 .ready .idle
  { s with tlbs := [⟨.l2, 0, 0, 4096, 2 ^ 39, true, true⟩, ⟨.l2, 0, 8192, 4096, 2 ^ 40, true, true⟩],
           dev := { s.dev with peerwin := [BitVec.ofNat 64 (2 ^ 63 + 2 ^ 40 + 1)], bar2 := 0 } }
theorem wit_nodeCopy_cut (h : Obligations.RingsAndGraphs) : Runs (.nodeCopy 0 0) sCut := by
  refine runs (((h.2 sCut 0 0 ?_ ?_ ?_).2.2.1 _ ?_ ?_ (okVal_sound [] ?_) ?_ ?_).1 (8192, true) ?_ ?_ ?_) <;> decide +kernel
/-- A RAPPLY record whose source lies in the table area, and a record of host memory. -/
def rTable : BitVec 512 := BitVec.ofNat 512 (4096 + 3 * 2 ^ 60 + (2 ^ 39 - 2 ^ 31) * 2 ^ 64 + 2 ^ 416)
def sTable (a : Nat) (arg : BitVec 512) : State :=
  let s := sGraph (rNode 1 64 0 0) (arg.setWidth 1024) .ready .idle
  { s with tlbs := [Tc.l2, .cellar 0].map (fun c => ⟨c, 0, 0, 2 ^ 39, a, true, true⟩) }
theorem wit_graphs_refused (h : Obligations.RingsAndGraphs) : Runs (.nodeCellar 0 0) (sTable (2 ^ 39) rTable) ∧ Runs (.nodeCellar 0 0) (sTable (2 ^ 50) rFill) := by
  constructor
  · refine ⟨_, ((h.2 (sTable (2 ^ 39) rTable) 0 0 ?_ ?_ ?_).2.1 ?_ ?_).2.1 ?_ (okIs_sound ?_) ?_⟩ <;> decide +kernel
  · refine ⟨_, (((h.2 (sTable (2 ^ 50) rFill) 0 0 ?_ ?_ ?_).2.1 ?_ ?_).2.2 _ ?_ (okIs_sound ?_) ?_ (okVal_sound [] ?_)).1 ?_⟩ <;> decide +kernel
theorem wit_graphs_rest (h : Obligations.RingsAndGraphs) :
    Runs (.nodeHostwait 0 0) (sGraph (rNode 3 2048 0 0) 0 .ready .idle) ∧ Runs (.nodeCond 0 0) (sGraph (rNode (4 + 2 ^ 20) 2048 0 0) 0 .ready .idle) ∧
    Runs (.nodeCond 0 0) (sGraph (rNode 4 2048 0 0) 0 .ready .idle) ∧ Runs (.nodeEvent 0 0) (sGraph 5 0 .ready .idle) ∧
    Runs (.nodeComplete 0 0) (sGraph 2 0 .acted .ready) ∧ Runs (.nodeComplete 0 0) (sGraph 2 0 .acted .idle) := by
  have go := fun (raw : BitVec 512) h1 h2 h3 => h.2 (sGraph raw 0 .ready .idle) 0 0 h1 h2 h3
  refine ⟨?_, ?_, ?_, ?_, ?_, ?_⟩
  · refine ⟨_, ((go (rNode 3 2048 0 0) ?_ ?_ ?_).2.2.2.1 _ ?_ (okVal_sound [] ?_) ?_ ?_).1
      ?_ ?_⟩ <;> decide +kernel
  · refine ⟨_, ((go (rNode (4 + 2 ^ 20) 2048 0 0) ?_ ?_ ?_).2.2.2.1 _ ?_ (okVal_sound [] ?_)
      ?_ ?_).2.1 ?_ ?_⟩ <;> decide +kernel
  · refine ⟨_, ((go (rNode 4 2048 0 0) ?_ ?_ ?_).2.2.2.1 _ ?_ (okVal_sound [] ?_)
      ?_ ?_).2.2 ?_ ?_⟩ <;> decide +kernel
  · refine ⟨_, (go 5 ?_ ?_ ?_).2.2.2.2.1 ?_ ?_ ?_⟩ <;> decide +kernel
  · refine ⟨_, ((h.2 (sGraph 2 0 .acted .ready) 0 0 ?_ ?_ ?_).2.2.2.2.2.2 ?_ ?_ ?_).1
      ?_⟩ <;> decide +kernel
  · refine runs (((h.2 (sGraph 2 0 .acted .idle) 0 0 ?_ ?_ ?_).2.2.2.2.2.2 ?_ ?_ ?_).2 ?_ ?_) <;> decide +kernel
/-! ### Partitions, registers and the outside -/

/-- Partition 3 as `r`; the launch's packs stand at headers in partition 0, which is as `r0`. -/
def sParts (r0 r : Part) (f : State → State) : State :=
  let s := sPack (2 ^ 116) (fun x => { x with lead := { path := some ⟨0, 0xFFFF, none⟩ } }) (.nop 7)
  f { s with parts := [r0, {}, {}, r], dev := { s.dev with bootstat := 5 } }
def saving (s : State) : State := { s with dev := { s.dev with ways := 11 }, shadow := [(0, false), (3, true)] }
/-- Pack 0 is stopped, in an open section. -/
def stopped (s : State) : State := s.modPack 0 (fun x => { x with stopped := true, sect := some { label := 0, mask := 0xFFFF, rpc := none, depth := 0, lclk := 7 } })
theorem wit_partitionEvents (h : Obligations.PartitionEvents) : Runs (.pctlPreWrite 3) (sParts {} {} id) ∧ Runs (.pctlPreWrite 3) (sParts {} { state := 2 } id) ∧
    Runs (.partitionHalted 0) (sParts { state := 1 } {} id) ∧ Runs (.shadowSaveDone 0) (sParts { state := 1, halted := true } {} saving) ∧
    Runs (.drainDone 0) (sParts { state := 2, drain := true } {} saving) ∧ Runs (.pctlResumeWrite 0) (sParts { state := 2 } {} saving) ∧
    Runs (.pctlResumeWrite 0) (sParts { state := 1 } {} id) ∧ Runs (.restoreDone 0) (sParts { state := 3 } {} stopped) := by
  refine ⟨?_, ?_, ?_, ?_, ?_, ?_, ?_, ?_⟩
  · refine runs ((h (sParts {} {} id) 3 ?_).1 ?_ ?_) <;> decide +kernel
  · refine ⟨_, (h (sParts {} { state := 2 } id) 3 ?_).2.1 ?_⟩ <;> decide +kernel
  · refine runs ((h (sParts { state := 1 } {} id) 0 ?_).2.2.1 ?_ ?_) <;> decide +kernel
  · refine runs ((h (sParts { state := 1, halted := true } {} saving) 0 ?_).2.2.2.1 ?_ ?_ ?_) <;> decide +kernel
  · refine runs ((h (sParts { state := 2, drain := true } {} saving) 0 ?_).2.2.2.2.1 ?_ ⟨false, [(3, true)], ?_⟩) <;> decide +kernel
  · refine runs ((h (sParts { state := 2 } {} saving) 0 ?_).2.2.2.2.2.1 ?_ ?_) <;> decide +kernel
  · refine ⟨_, (h (sParts { state := 1 } {} id) 0 ?_).2.2.2.2.2.2.1 ?_⟩ <;> decide +kernel
  · refine runs ((h (sParts { state := 3 } {} stopped) 0 ?_).2.2.2.2.2.2.2 ?_ ?_ ?_) <;> decide +kernel
/-- What the section and preemption clauses speak of is there. -/
theorem wit_partitionEvents_pack : isPre (sParts { state := 3 } {} stopped) 0 ((sParts { state := 3 } {} stopped).pack 0) = true ∧
    ((sParts { state := 3 } {} stopped).pack 0).stopped = true ∧ ((sParts { state := 3 } {} stopped).pack 0).sect.isSome = true ∧
    (splitUser ((sParts { state := 3 } {} stopped).pack 0).kennel).isNone = true := by decide +kernel
def sReg : State := sParts {} {} id
theorem wit_registerWrites (h : Obligations.RegisterWrites) : Runs (.registerWrite (0x100000 + 0x40 * 63) 5) sReg ∧ Runs (.registerWrite (0x110000 + 0x40 * 15) 5) sReg ∧
    Runs (.registerWrite (0x161000 + 0x10 * 15) 5) sReg ∧ Runs (.registerWrite (0x130020 + 0x100 * 3) 5) sReg ∧ Runs (.registerWrite 0x408 5) sReg ∧
    Runs (.registerWrite 0x10 5) sReg ∧ Runs (.xareleaseWrite 5) sReg ∧ Runs (.shadowwaysWrite 5) sReg ∧ Runs (.xlstatRfailClear 3) sReg ∧ Runs (.attcmdWrite 5) sReg := by
  have h := h sReg 5 (by decide +kernel) (by decide +kernel) (by decide +kernel) (by decide +kernel) (by decide +kernel)
  obtain ⟨h1, h2, h3, h4, h5, h6, h7, h8, h9, h10, h11, h12, h13, h14⟩ := h
  refine ⟨?_, ?_, ?_, ?_, ?_, ⟨_, h6 0x10 (by decide) (by decide) (by decide) (by decide) (by decide) (by decide)⟩, ⟨_, h7⟩, ?_, ⟨_, h10 3 (by decide)⟩, ⟨_, h13 (by decide +kernel)⟩⟩
  · refine runs ((h1 63 ?_).1) <;> decide +kernel
  · refine runs ((h2 15 ?_).1) <;> decide +kernel
  · refine runs ((h2 15 ?_).2.2.2) <;> decide +kernel
  · refine runs ((h3 3 ?_).2.2.2.2.1) <;> decide +kernel
  · refine runs (h4)
  · refine runs (h8 (invOf ?_)) <;> decide +kernel
def sSnap : State := sParts {} {} (fun s => { s with dev := { s.dev with snapctl := 1, attBusy := true } })
theorem wit_registerWrites_snap (h : Obligations.RegisterWrites) : Runs (.snaptrigWrite 4) sSnap ∧ Runs (.snaptrigWrite 5) sSnap ∧ Runs .snapctlFullClear sSnap ∧
    Runs (.attcmdWrite 5) sSnap ∧ Runs (.registerWrite (0x130028 + 0x100 * 3) 4) sSnap ∧ Runs (.registerWrite (0x140000 + 0x100 * 3) 4) sSnap := by
  have h4 := h sSnap 4 (by decide +kernel) (by decide +kernel) (by decide +kernel) (by decide +kernel) (by decide +kernel)
  have h5 := h sSnap 5 (by decide +kernel) (by decide +kernel) (by decide +kernel) (by decide +kernel) (by decide +kernel)
  obtain ⟨-, -, -, -, -, -, -, -, -, -, -, h12, -, -, h15, h16⟩ := h5
  obtain ⟨u, hu, -⟩ := h16 (by decide) (by decide +kernel) (by decide +kernel)
  obtain ⟨-, -, h3, -, -, -, -, -, -, -, -, -, -, h14, h15, -⟩ := h4
  have h3 := (h3 3 (by decide)).2.2.2.2.2
  exact ⟨⟨_, h15 (by decide)⟩, ⟨u, hu⟩, ⟨_, h14⟩, ⟨_, h12 (by decide +kernel)⟩, ⟨_, h3.1 (by decide)⟩, ⟨_, h3.2 (by decide)⟩⟩
def sUp : State := sParts {} {} id
/-- Before the part is up; beyond the aperture; and in the interleaved view, whose first page is stack 0's first. -/
theorem wit_outsideAccesses (h : Obligations.OutsideAccesses) : Runs (.hostBar2Read 0 4) (sAt (.nop 7)) ∧ Runs (.hostBar2Read (2 ^ 41) 4) sUp ∧ Runs (.hostBar2Read (2 ^ 39 + 64) 4) sUp ∧
    Runs (.peerAccessIn (.atomic .add (2 ^ 39 + 64) 4 1)) sUp ∧ Runs (.hostBar2Write (2 ^ 39 + 64) [1, 2, 3, 4]) sUp ∧ Runs (.peerAccessIn (.fatom .max .bf16 (2 ^ 39 + 64) 0x3F80)) sUp := by
  have ks : dpaRange sUp (2 ^ 39 + 64) 4 = some [64, 65, 66, 67] := by decide +kernel
  refine ⟨⟨_, ((h (sAt (.nop 7)) 0 4 [] [] (by decide +kernel)).1 (.inr (by decide +kernel))).1⟩, ⟨_, ((h sUp (2 ^ 41) 4 [] [] (by decide +kernel)).1 (.inl (by decide +kernel))).1⟩, ?_, ?_, ?_, ?_⟩
  · refine ⟨_, ((h sUp (2 ^ 39 + 64) 4 [64, 65, 66, 67] [1, 2, 3, 4] ?_).2.2.1 ks ?_ ?_).1⟩ <;> decide +kernel
  · refine runs ((((h sUp (2 ^ 39 + 64) 4 [64, 65, 66, 67] [1, 2, 3, 4] ?_).2.2.1 ks ?_ ?_).2.2 (invOf ?_) (.inl rfl) ?_ ?_ ?_ .add 1 0).1) <;> decide +kernel
  · refine runs (((h sUp (2 ^ 39 + 64) 4 [64, 65, 66, 67] [1, 2, 3, 4] ?_).2.2.2.1 ks ?_ ?_ ?_ ?_ (invOf ?_)).1) <;> decide +kernel
  · refine runs ((h sUp (2 ^ 39 + 64) 4 [64, 65] [1, 2, 3, 4] ?_).2.2.2.2 .max .bf16 0x3F80 ?_ ?_ ?_ ?_ (invOf ?_) ?_) <;> decide +kernel
/-- A state in which every event of health, links, snapshots and throttling may come. -/
def sHealth : State := sParts {} {} (fun s => { s with clk := 1500000, dev := { s.dev with
  linkstat := List.replicate 12 0, sparesUsed := List.replicate 8 0, snapctl := 3, snapLow := some 0, perm := [31, 9], temp := 1760, tripped := false } })
theorem wit_healthEvents (h : Obligations.HealthEvents) : Runs (.uncorrectableError 11) sHealth ∧ Runs (.linkPortStateChange 11 3) sHealth ∧ Runs (.linkFlitReplay 11) sHealth ∧
    Runs (.cellarUnitFailure 255) sHealth ∧ Runs (.clusterFailure 63) sHealth ∧ Runs .snapInEdge sHealth ∧ Runs .snapInEdge (sAt (.nop 7)) ∧ Runs .snapOutRelease sHealth ∧
    Runs (.throttleStepDown 1) sHealth ∧ Runs (.throttleRestore 0) { sHealth with dev := { sHealth.dev with temp := 0 } } ∧ Runs .thermalTrip sHealth := by
  obtain ⟨h1, -, h3, h4, -, -, -, -, h9, -, -, h11, -, -, h14⟩ := h sHealth 11
  have h7 := (h sHealth 255).2.2.2.2.2.2.1
  have h8 := (h sHealth 63).2.2.2.2.2.2.2.1
  have h10 := (h (sAt (.nop 7)) 0).2.2.2.2.2.2.2.2.2.2.1
  have h12 := (h sHealth 1).2.2.2.2.2.2.2.2.2.2.2.2.1
  obtain ⟨h13, -⟩ := (h { sHealth with dev := { sHealth.dev with temp := 0 } } 0).2.2.2.2.2.2.2.2.2.2.2.2.2
  refine ⟨?_, ?_, ?_, ?_, ?_, ?_, ⟨_, h10 (.inl (by decide +kernel))⟩, ⟨_, h11 0 (by decide +kernel) (by decide +kernel)⟩, ?_, ?_, ?_⟩
  · refine runs (h1 ?_) <;> decide +kernel
  · refine runs (h3 3 ?_ ?_ ?_) <;> decide +kernel
  · refine runs (h4 ?_ ?_) <;> decide +kernel
  · refine runs (h7 ?_ ?_ ?_) <;> decide +kernel
  · refine runs (h8 ?_ ?_) <;> decide +kernel
  · refine runs (h9 ?_ ?_ ?_) <;> decide +kernel
  · refine runs (h12 ?_ ?_ ?_ ?_ ?_) <;> decide +kernel
  · refine runs (h13 ?_ ?_ ?_ ?_) <;> decide +kernel
  · refine runs (h14 ?_ ?_) <;> decide +kernel
/-- The record holds a snapshot already, of this clock or of an earlier one. -/
def sFull' (c : Nat) : State := { sHealth with dev := { sHealth.dev with snapctl := 11, snapLow := some c } }
theorem wit_healthEvents_full (h : Obligations.HealthEvents) : Runs .snapInEdge (sFull' 1500000) ∧ Runs .snapInEdge (sFull' 0) := by
  refine ⟨⟨_, (h (sFull' 1500000) 0).2.2.2.2.2.2.2.2.2.1 ?_ ?_ ?_⟩, ⟨_, (h (sFull' 0) 0).2.2.2.2.2.2.2.2.2.1 ?_ ?_ ?_⟩⟩ <;> decide +kernel
/-- One page that queue 0 awaits to write, its merge entry at `st`. -/
def oneMerge (st : MState) : Merge := { pasid := 0, page := 7, write := true, waiters := [queueWaiter 0], writers := [queueWaiter 0], st := st, tries := 0, since := 0, part := 0 }
def oneGroup (n : Option Nat) : Group := { who := queueWaiter 0, index := n, pages := [(0, 7, true)], part := 0 }
def sMerge (st : MState) (gs : List Group) : State := { sAt (.nop 7) with merges := [oneMerge st], groups := gs }
/-- No pack has a region open. -/
theorem region_none {s : State} (h : s.packs.all (fun x => x.region.isNone) = true) (p : Nat) : (s.pack p).region = none := by
  rw [List.all_eq_true] at h
  by_cases hp : p < s.packs.length
  · have := h _ (List.getElem_mem hp)
    simpa [State.pack, nth, List.getD_eq_getElem?_getD, List.getElem?_eq_getElem hp] using this
  · simp [State.pack, nth, List.getD_eq_getElem?_getD, List.getElem?_eq_none (Nat.le_of_not_lt hp), noPack]
theorem wit_translationEvents (h : Obligations.TranslationEvents) :
    Runs (.atsTranslationCompletion 0 7 4096 (2 ^ 39) true true true) (sMerge .ats []) ∧ Runs (.atsTranslationCompletion 0 7 4096 (2 ^ 39) true true false) (sMerge .ats []) ∧
    Runs (.atsTranslationCompletion 0 7 4096 (2 ^ 39) true false false) (sMerge .ats []) ∧ Runs (.atsCompletionTimeout 0 7) (sMerge .ats []) ∧
    Runs .pageRequestGroupSend (sMerge .pri [(oneGroup none)]) ∧ Runs (.prgResponseSuccess 3) (sMerge .pri [(oneGroup (some 3))]) ∧
    Runs (.prgResponseInvalidRequest 3) (sMerge .pri [(oneGroup (some 3))]) ∧ Runs (.prgResponseFailure 3) (sMerge .pri [(oneGroup (some 3))]) ∧
    Runs (.atsInvalidateRequest 0 0 4096) (sMerge .ats []) := by
  have hu := h (sMerge .ats []) (oneMerge .ats) 4096 (2 ^ 39) 3 true true true (by decide +kernel)
  have hg := h (sMerge .ats []) (oneMerge .ats) 4096 (2 ^ 39) 3 true true false (by decide +kernel)
  have hn := h (sMerge .ats []) (oneMerge .ats) 4096 (2 ^ 39) 3 true false false (by decide +kernel)
  have hs := h (sMerge .pri [(oneGroup none)]) (oneMerge .pri) 4096 (2 ^ 39) 3 true true false (by decide +kernel)
  have hr := h (sMerge .pri [(oneGroup (some 3))]) (oneMerge .pri) 4096 (2 ^ 39) 3 true true false (by decide +kernel)
  refine ⟨?_, ?_, ?_, ?_, ?_, ?_, ?_, ?_, ?_⟩
  · refine runs (hu.1 rfl rfl ?_) <;> decide +kernel
  · refine runs (hg.2.1 rfl rfl ?_ ?_ 0 (.inl ?_)) <;> decide +kernel
  · refine runs (hn.2.2.1 rfl ?_ (.inr (.inr ?_)) ?_ ?_ ?_ (region_none ?_)) <;> decide +kernel
  · refine runs (hu.2.2.2.1 rfl ?_) <;> decide +kernel
  · refine runsU (hs.2.2.2.2.1 (oneGroup none) ?_ ?_ ?_) <;> decide +kernel
  · refine runs ((hr.2.2.2.2.2.1 (oneGroup (some 3)) ?_ rfl rfl ?_ ?_).1) <;> decide +kernel
  · refine runs ((hr.2.2.2.2.2.1 (oneGroup (some 3)) ?_ rfl rfl ?_ ?_).2.1 ?_) <;> decide +kernel
  · refine runs ((hr.2.2.2.2.2.1 (oneGroup (some 3)) ?_ rfl rfl ?_ ?_).2.2 ?_) <;> decide +kernel
  · refine runs (hu.2.2.2.2.2.2.1 0 ?_) <;> decide +kernel
def sAborted : State := sPack 0 (fun x => { x with region := some ⟨8, 0xFFFF, none, 0, 0, [], true, []⟩ }) (.nop 7)
theorem wit_translationEvents_region (h : Obligations.TranslationEvents) : Runs (.regionRequeue 0) { sAborted with merges := [oneMerge .ats] } := by
  have no : ({ sAborted with merges := [oneMerge .ats] } : State).ops = [] := by decide +kernel
  refine runs ((h { sAborted with merges := [oneMerge .ats] } (oneMerge .ats) 4096 0 3 true true true ?_).2.2.2.2.2.2.2 0 ⟨8, 0xFFFF, none, 0, 0, [], true, []⟩
    ?_ rfl ?_ ?_ (fun o ho => absurd (no ▸ ho) List.not_mem_nil) ?_ rfl) <;> decide +kernel
def sReport : State := { sAt (.nop 7) with dev := { (sAt (.nop 7)).dev with attBusy := true, attAddr := 2 ^ 50 } }
theorem wit_resetAndAttestation (h : Obligations.ResetAndAttestation) : Runs .powerOnReset (sAt (.nop 7)) ∧ Runs .attestationReport sReport := by
  constructor
  · exact runs (h (sAt (.nop 7))).1
  · refine runs ((h sReport).2.2 ?_ ?_ ?_ ?_ (invOf ?_)) <;> decide +kernel

/-- The boot processor at step `n`; each step leads to the next one or to FAILED. -/
def sBoot (n : Nat) : State := { sAt (.nop 7) with dev := { (sAt (.nop 7)).dev with bootstat := BitVec.ofNat 64 n, linkstat := List.replicate 12 0 } }
theorem wit_bootSteps (h : Obligations.ResetAndAttestation) : bitsAt (bootNext (sBoot 4)).dev.bootstat 0 4 = 5 ∧
    (∀ a < busBase, memByte (bootNext (sBoot 3)) a = 0) ∧ (bitsAt (sBoot 1).dev.bootstat 0 4 = 1 ∧ bitsAt (sBoot 2).dev.bootstat 0 4 = 2) :=
  ⟨((h (sBoot 4)).2.1.2.2.2 (by decide) (by decide)).1, ((h (sBoot 3)).2.1.2.2.1 (by decide)).1, by decide, by decide⟩

/-! ### The machine as a whole -/

theorem wit_decodeInvertsEncode : ∀ i ∈ [Instr.nop 7, iMma, iCpyr, .smovi 0 479 0xFFFFFFFF], i.wellFormed = true ∧ isEvent i = false := by decide +kernel
theorem wit_encodeInvertsDecode : decode 0x1030A00000000007 0 = some (.psrd 7 389 0) := by decide +kernel
/-- The slot of pack 0 is to issue; an event is to run; and nothing is named while a launch's block waits to be placed. -/
def sTurn : State := { sAt (.smovi 7 389 5) with agenda := [.issue 0 0] }
/-- The machine as the turn comes. -/
def sNow : State := actState sTurn false (.issue 0 0) []
def cTurn : Clause := (cxAt (.smovi 7 389 5) (sAt (.smovi 7 389 5))).cl
def wTurn : W64 := okVal (fetchCode (turned sNow) 0 0 8) 0
theorem wit_stepRunsDecoded (h : Obligations.StepRunsDecoded) : (∃ t, step sTurn = exec (.smovi 7 389 5) t) ∧
    (∃ t, step { sTurn with agenda := [.unit .correctableError] } = exec .correctableError t) := by
  constructor
  · refine ⟨_, (((h sTurn []).1 false (.issue 0 0) rfl).1 0 0 ⟨8, 0xFFFF, none⟩ cTurn wTurn 0 (.smovi 7 389 5) (turned sNow) rfl (turn_some (s := sNow) ?_) ?_ ?_
      (okIs_sound ?_) (okIs_sound ?_) ?_).1⟩ <;> decide +kernel
  · refine ⟨_, ((h { sTurn with agenda := [.unit .correctableError] } []).1 false (.unit .correctableError) rfl).2.1 .correctableError rfl ?_⟩ <;> decide +kernel
/-- A further act of the clock that has begun. -/
def sAlso (a : Act) : State := { sTurn with agenda := [.together, a] }
def sAlso' : State := actState (sAlso (.issue 0 0)) true (.issue 0 0) []
def wAlso : W64 := okVal (fetchCode (turned sAlso') 0 0 8) 0
theorem wit_stepRunsDecoded_together (h : Obligations.StepRunsDecoded) : (∃ t, step (sAlso (.issue 0 0)) = exec (.smovi 7 389 5) t) ∧
    (∃ t, step (sAlso (.unit .correctableError)) = exec .correctableError t) := by
  constructor
  · refine ⟨_, (((h (sAlso (.issue 0 0)) []).1 true (.issue 0 0) rfl).1 0 0 ⟨8, 0xFFFF, none⟩ cTurn wAlso 0 (.smovi 7 389 5) (turned sAlso') rfl (turn_some (s := sAlso') ?_) ?_ ?_
      (okIs_sound ?_) (okIs_sound ?_) ?_).1⟩ <;> decide +kernel
  · refine ⟨_, ((h (sAlso (.unit .correctableError)) []).1 true (.unit .correctableError) rfl).2.1 .correctableError rfl ?_⟩ <;> decide +kernel
def sIdle : State := { sTurn with agenda := [] }
/-- What `stepAct` answers for the first thing due. -/
def nextOr (o : Host.Outcome State Fault Refusal) : Option State := match o with | .next u => some u | _ => none
theorem wit_stepRunsDecoded_due (h : Obligations.StepRunsDecoded) : ∃ u, step sIdle = .next u := by
  have ha : (dueActs (nextClock sIdle)).isEmpty = false ∧
      (nextOr (stepAct (nextClock sIdle) ((dueActs (nextClock sIdle)).headD (.clock 0)))).isSome = true := by decide +kernel
  revert ha
  cases hd : dueActs (nextClock sIdle) with
  | nil => intro ha; cases ha.1
  | cons a as =>
    intro ha
    cases hn : stepAct (nextClock sIdle) a with
    | next u => exact ⟨u, (h sIdle []).2.1 a as u (by decide +kernel) hd hn⟩
    | fault f => rw [List.headD_cons, hn] at ha; cases ha.2
    | refused r => rw [List.headD_cons, hn] at ha; cases ha.2
/-- An instruction of another class than its clause's; and one whose source an operation will write. -/
def iVmov : Instr := .vmov 7 .i32 3 8
def sLocked : State := { sAt iVmov with ops := [{ id := 0, pack := some 0, launch := 0, k := some .ld, dv := [8], body := .post [] }], nextOp := 1 }
theorem cxOf_same {i : Instr} {s : State} (h : i.sync = false) (h2 : (cxOf i s).isSome = true) : cxOf i s = some (cxAt i s, s) := by
  obtain ⟨e, he⟩ := Option.isSome_iff_exists.1 h2
  have : stAt i s = s := stAt_same h
  simp only [stAt, he] at this
  simp only [cxAt, he]
  rw [← this]
theorem wit_issueChecks (h : Obligations.IssueChecks) : Runs iVmov (sAt iLd) ∧ Runs iVmov sLocked := by
  constructor
  · refine ⟨_, (h iVmov (sAt iLd) (cxAt iVmov (sAt iLd)) (sAt iLd) 0 ?_ (cxOf_same rfl ?_) ?_).1
      ?_ ⟨?_, ?_⟩⟩ <;> decide +kernel
  · refine ⟨_, (h iVmov sLocked (cxAt iVmov sLocked) sLocked 0 ?_ (cxOf_same rfl ?_) ?_).2 ?_ ?_⟩ <;> decide +kernel
/-- The invariants hold of a state from which a step is taken. -/
theorem wit_stepKeepsInv (h : Obligations.StepKeepsInv) (h' : Obligations.OperationNumbers) (hi : Obligations.Reset) : ∃ t, step State.reset = .next t ∧ Inv t ∧ Numbered t := by
  have ha : (nextOr (step State.reset)).isSome = true := by decide +kernel
  revert ha
  cases hn : step State.reset with
  | next t => intro _; exact ⟨t, rfl, h _ _ hi.1.1 hn, h' _ _ hi.1.2 hn⟩
  | fault f => intro ha; cases ha
  | refused r => intro ha; cases ha
/-- Two adds of pack 0, the first at its line's window `x` where there is one, which launch `n` of two has opened. -/
def sHeld (held det : Bool) (x : Option Window) : State :=
  let s := sOp 1 .st (.adds [uAdd, { uAdd with g := 1, ph := 8192 }] held false [])
  { s with launches := s.launches.map (launchWith (if det then 2 ^ 111 else 0)) ++ s.launches,
           mem := { s.mem with windows := match x with | none => [] | some x => [(lineOf 4096, x)] } }
def oHeld (held : Bool) : Op := oOp 1 .st (.adds [uAdd, { uAdd with g := 1, ph := 8192 }] held false [])
def winOf (launch : Nat) (det : Bool) (n : Nat) : Window := ⟨launch, det, List.replicate n { uAdd with g := 7, val := 0x40000000 }, []⟩
/-- A held add finds no window, its own launch's, that full, another launch's; an add intrudes, and one closes the window. -/
theorem wit_heldAddWindows (h : Obligations.HeldAddWindows) : Runs (.splatAddArrival 0 0) (sHeld true true none) ∧
    Runs (.splatAddArrival 0 0) (sHeld true true (some (winOf 0 true 15))) ∧ Runs (.splatAddArrival 0 0) (sHeld true true (some (winOf 0 true 16))) ∧
    Runs (.splatAddArrival 0 0) (sHeld true true (some (winOf 1 true 1))) ∧ Runs (.splatAddArrival 0 0) (sHeld false false (some (winOf 1 true 1))) ∧
    Runs (.splatAddArrival 0 0) (sHeld false false (some (winOf 1 false 1))) := by
  have go := fun (held det : Bool) (x : Option Window) h0 h1 h2 h3 h4 h5 h6 h7 h8 h9 =>
    h.2.1 (sHeld held det x) 0 0 0 (oHeld held) uAdd [uAdd, { uAdd with g := 1, ph := 8192 }] held false [] h0 h1 h2 h3 h4 h5 (invOf h6) h7 h8 h9
  refine ⟨?_, ?_, ?_, ?_, ?_, ?_⟩
  · refine runs ((go true true none ?_ ?_ ?_ ?_ ?_ ?_ ?_ ?_ ?_ ?_).1 rfl ?_) <;> decide +kernel
  · refine runs (((go true true (some (winOf 0 true 15)) ?_ ?_ ?_ ?_ ?_ ?_ ?_ ?_ ?_ ?_).2 (winOf 0 true 15) ?_).1 rfl ?_ ?_) <;> decide +kernel
  · refine runs (((go true true (some (winOf 0 true 16)) ?_ ?_ ?_ ?_ ?_ ?_ ?_ ?_ ?_ ?_).2 (winOf 0 true 16) ?_).2.1 rfl ?_ ?_) <;> decide +kernel
  · refine runs (((go true true (some (winOf 1 true 1)) ?_ ?_ ?_ ?_ ?_ ?_ ?_ ?_ ?_ ?_).2 (winOf 1 true 1) ?_).2.2.1 rfl ?_ ?_) <;> decide +kernel
  · refine runs (((go false false (some (winOf 1 true 1)) ?_ ?_ ?_ ?_ ?_ ?_ ?_ ?_ ?_ ?_).2 (winOf 1 true 1) ?_).2.2.2.1 ?_ ?_ ?_ ?_) <;> decide +kernel
  · refine runs (((go false false (some (winOf 1 false 1)) ?_ ?_ ?_ ?_ ?_ ?_ ?_ ?_ ?_ ?_).2 (winOf 1 false 1) ?_).2.2.2.2 rfl ?_) <;> decide +kernel
def sShut : State := let s := sOp 1 .st (bStore 4096); { s with mem := { s.mem with windows := [(1024 / 32, winOf 0 true 2)] } }
theorem wit_heldAddWindows_store (h : Obligations.HeldAddWindows) : Runs (.storeRegister 0 1024 []) sShut :=
  runs (h.2.2 sShut 0 1024 (oOp 1 .st (bStore 4096)) [(4096, 7), (4097, 8)] (winOf 0 true 2) (invOf (by decide +kernel)) (by decide +kernel)
    (by decide +kernel) (by decide +kernel) trivial (by decide +kernel))
/-- V8 is tagged B. -/
def b8 (x : Pack) : Pack := x.tag 8 true
/-- The kennel holds 32 entries, and 1,024 are spilled, as many as the launch has room for. -/
def crowded (x : Pack) : Pack := { x with p := x.p.set 1 0x000F, kennel := List.replicate 1056 (.join 0 ⟨0, 0, none⟩ 0) }
theorem wit_operandTraps_tags (h : Obligations.OperandTraps) : Runs (.vcmp 7 .i32 .lt 1 8 9) (sPack 0 b8 (.vcmp 7 .i32 .lt 1 8 9)) ∧
    Runs (.ld 7 false .w4 .dflt 9 ⟨127, 8, 0⟩) (sPack 0 b8 (.ld 7 false .w4 .dflt 9 ⟨127, 8, 0⟩)) ∧ Runs iSt (sPack 0 b8 iSt) := by
  refine ⟨?_, ?_, ?_⟩
  · refine ⟨_, (h 7 _ _ _ 0 ?_ ⟨?_, ?_⟩ ?_).1 .i32 .lt 1 8 9 8 ?_ (issuesAt_sound ?_)⟩ <;> decide +kernel
  · refine ⟨_, ((h 7 _ _ _ 0 ?_ ⟨?_, ?_⟩ ?_).2.1 false .w4 .dflt 9 ⟨127, 8, 0⟩ ?_).1 ?_ (issuesAt_sound ?_)⟩ <;> decide +kernel
  · refine ⟨_, ((h 7 _ _ _ 0 ?_ ⟨?_, ?_⟩ ?_).2.2.1 .w8 .dflt 8 ⟨127, 511, 64⟩ ?_ ?_).1 8 ?_ (issuesAt_sound ?_)⟩ <;> decide +kernel
def iLdm (o : BitVec 16) (b : BitVec 7) : Instr := .ld 7 false .w4 .dflt 9 ⟨b, 511, o⟩
def iStm (o : BitVec 16) (b : BitVec 7) : Instr := .st 7 false .w4 .dflt 9 ⟨b, 511, o⟩
/-- An address that no translation serves is in S5. -/
def far : Pack → Pack := withS5 (2 ^ 57)
theorem wit_operandTraps_addresses (h : Obligations.OperandTraps) : Runs (iLdm 2 127) (sAt (iLdm 2 127)) ∧ Runs (iLdm 0 5) (sPack 0 far (iLdm 0 5)) ∧
    Runs (iStm 2 127) (sAt (iStm 2 127)) ∧ Runs (iStm 0 5) (sPack 0 far (iStm 0 5)) := by
  refine ⟨?_, ?_, ?_, ?_⟩
  · refine ⟨_, ((h 7 _ _ _ 0 ?_ ⟨?_, ?_⟩ ?_).2.1 false .w4 .dflt 9 ⟨127, 511, 2⟩ ?_).2.1 ?_ 0 ?_ (issuesAt_sound ?_)⟩ <;> decide +kernel
  · refine ⟨_, ((h 7 _ _ _ 0 ?_ ⟨?_, ?_⟩ ?_).2.1 false .w4 .dflt 9 ⟨5, 511, 0⟩ ?_).2.2 ?_ ?_ (2 ^ 57) ⟨?_, ?_, ?_⟩ (issuesAt_sound ?_)⟩ <;> decide +kernel
  · refine ⟨_, (((h 7 _ _ _ 0 ?_ ⟨?_, ?_⟩ ?_).2.2.1 .w4 .dflt 9 ⟨127, 511, 2⟩ ?_ ?_).2 ?_).1 0 ?_ (issuesAt_sound ?_)⟩ <;> decide +kernel
  · refine ⟨_, (((h 7 _ _ _ 0 ?_ ⟨?_, ?_⟩ ?_).2.2.1 .w4 .dflt 9 ⟨5, 511, 0⟩ ?_ ?_).2 ?_).2 ?_ (2 ^ 57) ⟨?_, ?_, ?_⟩ (issuesAt_sound ?_)⟩ <;> decide +kernel
def iIldc (b : Fld) : Instr := .ild 1 .desc 8 4 b
def sBadGrid : State := withRam (bytesAt 64 (2 ^ 511) 64) (sAt iGdld)
/-- The dense grid with a FAULT axis, the coordinates 100. -/
def rFault : BitVec 512 := BitVec.ofNat 512 (rDense.toNat + 4 * 2 ^ 285)
def sOut : State :=
  let s := sPack 0 (fun x => (someP1 x).writeLanes 4 0x000F (fun _ => 0x42C80000)) iIld
  { s with blocks := s.blocks.map (fun b => { b with slots := b.slots.set 0 (some ⟨rFault, 64⟩) }) }
theorem wit_operandTraps_grids (h : Obligations.OperandTraps) : Runs iIld (sPack 0 someP1 iIld) ∧ Runs (iIldc 1) (sGrid (iIldc 1)) ∧ Runs iIld sOut ∧
    Runs (.hfind 1 8 4 0) (sGrid (.hfind 1 8 4 0)) ∧ Runs iGdld sBadGrid := by
  refine ⟨?_, ?_, ?_, ?_, ?_⟩
  · refine ⟨_, ((h 1 _ _ _ 0 ?_ ⟨?_, ?_⟩ ?_).2.2.2.1 false .desc 8 4 0 ?_).1 ?_ (issuesAt_sound ?_)⟩ <;> decide +kernel
  · refine ⟨_, ((h 1 _ _ _ 0 ?_ ⟨?_, ?_⟩ ?_).2.2.2.1 false .desc 8 4 1 ?_).2.1 ⟨rCell, 128⟩ ?_ ?_ (issuesAt_sound ?_)⟩ <;> decide +kernel
  · refine ⟨_, ((h 1 _ _ _ 0 ?_ ⟨?_, ?_⟩ ?_).2.2.2.1 false .desc 8 4 0 ?_).2.2 ⟨rFault, 64⟩ 0 0 100 (okIs_sound ?_) ?_ (issuesAt_sound ?_)⟩ <;> decide +kernel
  · refine ⟨_, (h 1 _ _ _ 0 ?_ ⟨?_, ?_⟩ ?_).2.2.2.2.1 8 4 0 ?_ ⟨rDense, 64⟩ ?_ ?_ (issuesAt_sound ?_)⟩ <;> decide +kernel
  · refine ⟨_, (h 7 _ _ _ 0 ?_ ⟨?_, ?_⟩ ?_).2.2.2.2.2.1 2 ⟨127, 511, 64⟩ _ ?_ ?_ (okVal_sound [] ?_) ?_ ?_ ?_ ?_ ?_ (issuesAt_sound ?_)⟩ <;> decide +kernel
def iBad : Instr := .bra 7 1 0xFFFF00 8
def iBadRcv : Instr := .bra 7 1 4 0x7000
def sFork (i : Instr) : State := sPack 0 someP1 i
def iCallee : Instr := .call 7 4
/-- The path of pack 0 returns to the end of the window. -/
def farReturn (x : Pack) : Pack := { x with lead := { x.lead with path := x.lead.path.map (fun q => { q with rpc := some (2 ^ 32) }) } }
theorem wit_operandTraps_targets (h : Obligations.OperandTraps) : Runs iBad (sFork iBad) ∧ Runs iBadRcv (sFork iBadRcv) ∧ Runs iSplit (withWord 80 (2 ^ 54) (sFork iSplit)) ∧
    Runs iSplit (withHeader 80 (sPack 0 crowded iSplit)) ∧ Runs iRet (sAt iRet) ∧ Runs iCallee (sPack 0 crowded iCallee) ∧
    Runs iRet (sPack 0 farReturn iRet) := by
  refine ⟨?_, ?_, ?_, ?_, ?_, ?_, ?_⟩
  · refine ⟨_, ((h 7 _ _ _ 0 ?_ ⟨?_, ?_⟩ ?_).2.2.2.2.2.2.1 1 0xFFFF00 8 ⟨8, 0xFFFF, none⟩ ?_ ?_ ?_).1 ?_ (issuesAt_sound ?_)⟩ <;> decide +kernel
  · refine ⟨_, (((h 7 _ _ _ 0 ?_ ⟨?_, ?_⟩ ?_).2.2.2.2.2.2.1 1 4 0x7000 ⟨8, 0xFFFF, none⟩ ?_ ?_ ?_).2 ?_ ?_ ?_).1 ?_ (issuesAt_sound ?_)⟩ <;> decide +kernel
  · refine ⟨_, ((((h 7 _ _ _ 0 ?_ ⟨?_, ?_⟩ ?_).2.2.2.2.2.2.1 1 4 8 ⟨8, 0xFFFF, none⟩ ?_ ?_ ?_).2 ?_ ?_ ?_).2 (2 ^ 54) ?_ (okIs_sound ?_)).1 ?_ (issuesAt_sound ?_)⟩ <;> decide +kernel
  · refine ⟨_, ((((h 7 _ _ _ 0 ?_ ⟨?_, ?_⟩ ?_).2.2.2.2.2.2.1 1 4 8 ⟨8, 0xFFFF, none⟩ ?_ ?_ ?_).2 ?_ ?_ ?_).2 (0xFF000000 ||| Cls.sys.code.setWidth 64) ?_
      (okIs_sound ?_)).2 ?_ ?_ (issuesAt_sound ?_)⟩ <;> decide +kernel
  · refine ⟨_, ((h 7 _ _ _ 0 ?_ ⟨?_, ?_⟩ ?_).2.2.2.2.2.2.2 ?_).1 ?_ (issuesAt_sound ?_)⟩ <;> decide +kernel
  · refine ⟨_, ((h 7 _ _ _ 0 ?_ ⟨?_, ?_⟩ ?_).2.2.2.2.2.2.2 ?_).2.2 4 ?_ ?_ (issuesAt_sound ?_)⟩ <;> decide +kernel
  · refine ⟨_, ((h 7 _ _ _ 0 ?_ ⟨?_, ?_⟩ ?_).2.2.2.2.2.2.2 ?_).2.1 (2 ^ 32) ?_ ?_ (issuesAt_sound ?_)⟩ <;> decide +kernel

end Sys2Proof.Tests
end

section
/-!
SUPPORT. Predicate and probability instructions: each meaning meets the shared rule of its operand form (`Laws/Issue.lean`) at
the value that the instruction's rule of the spec gives, and O4 and O5 are assembled from these.
-/
namespace Sys2Proof.Machine
open Sys2Proof

/-! ### The operand forms that the shared rules leave out -/

/-- The predicate rule where a lane's bit depends on which member writes it (PSET's team lanes, R229). -/
theorem predResult_member {i : Instr} {g : Guard} {d : Fld} {f : State → Nat → Pack → Nat → Bool} {out : State → Nat → Nat → Bool}
    (he : ∀ s, exec i s = issue i s (fun cx s =>
      .ok (eachPack s (s.acting cx g) (fun p x => x.writePred d.toNat (s.active cx g p) (f s p x)))))
    (ho : ∀ t p l, out t p l = f t p (t.pack p) l) : PredResult i g d [] out := by
  intro s cx t h _
  obtain ⟨hl, hp⟩ := acting_only h.facts g (fun p x => x.writePred d.toNat (t.active cx g p) (f t p x))
  obtain ⟨u, hu, hr⟩ := completes h (body := fun cx s =>
    .ok (eachPack s (s.acting cx g) (fun p x => x.writePred d.toNat (s.active cx g p) (f s p x)))) rfl hl
  exact ⟨_, u, (he s).trans hu, hr, ⟨fun p => by rw [hp.packs p, ← funext (ho t p)], hp.rest⟩⟩

/-- The Q rule of an instruction without checked sources (R230). -/
theorem qResult_free {i : Instr} {g : Guard} {d : Fld} {f : State → Pack → Nat → BitVec 24} {out : State → Nat → Nat → BitVec 24}
    (he : ∀ s, exec i s = issue i s (fun cx s => qOp g d cx s (f s)))
    (ho : ∀ t p l, out t p l = f t (t.pack p) l) : QResult i g d [] out :=
  qResult_of he (fun _ _ _ => rfl) ho

/-! ### Boolean predicates (R229, R233, R241, R247) -/

theorem pset_result (g : Guard) (d a : Fld) :
    PredResult (.pset g d a) g d [] (fun t p l => ((t.pack p).srcs a).getLsbD (t.teamLane p l)) :=
  predResult_member (f := fun s p x l => (x.srcs a).getLsbD (s.teamLane p l)) (fun _ => rfl) (fun _ _ _ => rfl)

theorem pand_result (g : Guard) (na nb : Bool) (d a b : Fld) :
    PredResult (.pand g na nb d a b) g d []
      (fun t p l => (t.pack p).pv (pcodeOf na a) l && (t.pack p).pv (pcodeOf nb b) l) :=
  predResult_free (fun _ => rfl) (fun _ _ _ => rfl)

theorem por_result (g : Guard) (na nb : Bool) (d a b : Fld) :
    PredResult (.por g na nb d a b) g d []
      (fun t p l => (t.pack p).pv (pcodeOf na a) l || (t.pack p).pv (pcodeOf nb b) l) :=
  predResult_free (fun _ => rfl) (fun _ _ _ => rfl)

theorem pxor_result (g : Guard) (na nb : Bool) (d a b : Fld) :
    PredResult (.pxor g na nb d a b) g d []
      (fun t p l => (t.pack p).pv (pcodeOf na a) l != (t.pack p).pv (pcodeOf nb b) l) :=
  predResult_free (fun _ => rfl) (fun _ _ _ => rfl)

theorem pnot_result (g : Guard) (d a : Fld) :
    PredResult (.pnot g d a) g d [] (fun t p l => !(t.pack p).pv a.toNat l) :=
  predResult_free (fun _ => rfl) (fun _ _ _ => rfl)

theorem pmov_result (g : Guard) (na : Bool) (d a : Fld) :
    PredResult (.pmov g na d a) g d [] (fun t p l => (t.pack p).pv (pcodeOf na a) l) :=
  predResult_free (fun _ => rfl) (fun _ _ _ => rfl)

/-- A lane's element 0 draws at the lane's own index base (R55). -/
theorem drawAt_zero (s : State) (x : Pack) (l stream : Nat) :
    s.drawAt x l 0 stream = draw x.seed (8 * s.gIndex x l) stream := rfl

theorem qdraw_result (g : Guard) (stream : BitVec 8) (d a : Fld) :
    PredResult (.qdraw g stream d a) g d [] (fun t p l =>
      let f := qCode ((t.pack p).qget a.toNat l)
      f == 65535 || decide (draw (t.pack p).seed (8 * t.gIndex (t.pack p) l) stream.toNat % 65536 < f)) :=
  predResult_free (fun _ => rfl) (fun t p l => by rw [drawAt_zero])

theorem vcmp_result (g : Guard) (ty : IntTy) (rel : Rel) (d a b : Fld) :
    PredResult (.vcmp g ty rel d a b) g d [a, b] (fun t p l =>
      relHolds rel (tval ty ((t.pack p).srcv .int a l).toNat) (tval ty ((t.pack p).srcv .int b l).toNat)) :=
  predResult_of (fun _ => rfl) (fun _ _ _ => rfl)

theorem fcmp_result (g : Guard) (rel : QRel) (d a b : Fld) :
    PredResult (.fcmp g rel d a b) g d [a, b] (fun t p l =>
      qrelHolds rel (f32 ((t.pack p).srcv .fp a l)) (f32 ((t.pack p).srcv .fp b l))) :=
  predResult_of (fun _ => rfl) (fun _ _ _ => rfl)

/-- Settles O4: each instruction meets the predicate rule; VCMP and FCMP check both sources, and PSET reads by team lane. -/
theorem predicateInstructions : Obligations.PredicateInstructions := by
  intro g na nb d a b ty rel q stream pa pb
  exact ⟨pset_result g d a, pand_result g na nb d a b, por_result g na nb d a b, pxor_result g na nb d a b, pnot_result g d a,
    pmov_result g na d a, qdraw_result g stream d a, vcmp_result g ty rel d a b, fcmp_result g q d a b⟩

/-! ### Probability predicates (R230 to R232, R234 to R236) -/

/-- QCMP checks its sources only where a member's sharpness is infinite, that is for the hard comparison (R63, R64, R180). -/
theorem qcmp_result (g : Guard) (rel : QRel) (lin : BitVec 3) (d a b : Fld) :
    QResult (.qcmp g rel lin d a b) g d [a, b] (fun t p l =>
      qMake (qcmpCode rel ((t.pack p).srcv .fp a l) ((t.pack p).srcv .fp b l) (t.pack p).beta) (2 ^ lin.toNat)) := by
  refine qResult_of (f := fun _ x l => qMake (qcmpCode rel (x.srcv .fp a l) (x.srcv .fp b l) x.beta) (2 ^ lin.toNat))
    (fun _ => rfl) (fun cx t h => ?_) (fun _ _ _ => rfl)
  by_cases hard : cx.packs.any (fun p => (t.pack p).beta == 0x7F800000) = true
  · have inf : ∃ q ∈ cx.packs, (t.pack q).beta = 0x7F800000 := by simpa using hard
    rw [if_pos hard, bndUse_ok (fun p hp ha => h p hp ha inf)]
    rfl
  · rw [if_neg hard]

theorem qand_result (g : Guard) (rule : QRule) (d a b : Fld) :
    QResult (.qand g rule d a b) g d [] (fun t p l =>
      let u := (t.pack p).qget a.toNat l
      let w := (t.pack p).qget b.toNat l
      qMake (if productRule rule u w then qmul (qCode u) (qCode w) else min (qCode u) (qCode w)) (qLin u ||| qLin w)) :=
  qResult_free (fun _ => rfl) (fun _ _ _ => rfl)

theorem qor_result (g : Guard) (rule : QRule) (d a b : Fld) :
    QResult (.qor g rule d a b) g d [] (fun t p l =>
      let u := (t.pack p).qget a.toNat l
      let w := (t.pack p).qget b.toNat l
      qMake (if productRule rule u w then nearestDiv ((qCode u + qCode w) * 65535 - qCode u * qCode w) 65535
        else max (qCode u) (qCode w)) (qLin u ||| qLin w)) :=
  qResult_free (fun _ => rfl) (fun _ _ _ => rfl)

theorem qnot_result (g : Guard) (d a : Fld) :
    QResult (.qnot g d a) g d [] (fun t p l =>
      let u := (t.pack p).qget a.toNat l
      qMake (65535 - qCode u) (qLin u)) :=
  qResult_free (fun _ => rfl) (fun _ _ _ => rfl)

theorem qmov_qq_result (g : Guard) (d a : Fld) :
    QResult (.qmov g .qq d a) g d [] (fun t p l => (t.pack p).qget a.toNat l) :=
  qResult_free (fun _ => rfl) (fun _ _ _ => rfl)

theorem qmov_fromV_result (g : Guard) (d a : Fld) :
    QResult (.qmov g .fromV d a) g d [] (fun t p l => ((t.pack p).srcv .int a l).setWidth 24) :=
  qResult_free (fun _ => rfl) (fun _ _ _ => rfl)

theorem qmov_toV_result (g : Guard) (d a : Fld) :
    VectorResult (.qmov g .toV d a) g d [] (fun t p l => ((t.pack p).qget a.toNat l).setWidth 32) :=
  vectorResult_of (fun _ => rfl) (fun _ _ _ => rfl)

theorem qlin_result (g : Guard) (op : LinOp) (m : BitVec 8) (d a : Fld) :
    QResult (.qlin g op m d a) g d [] (fun t p l =>
      let u := (t.pack p).qget a.toNat l
      (match op with | .set => m | .clr => u.extractLsb' 16 8 &&& ~~~ m | .or => u.extractLsb' 16 8 ||| m) ++
        u.extractLsb' 0 16) :=
  qResult_free (fun _ => rfl) (fun _ _ _ => rfl)

theorem qblend_result (g : Guard) (d a b c : Fld) :
    VectorResult (.qblend g d a b c) g d [b, c] (fun t p l =>
      blend (qCode ((t.pack p).qget a.toNat l)) ((t.pack p).srcv .fp b l) ((t.pack p).srcv .fp c l)) :=
  vectorResult_of (fun _ => rfl) (fun _ _ _ => rfl)

theorem qgrad_result (g : Guard) (d a : Fld) :
    VectorResult (.qgrad g d a) g d [] (fun t p l => qgradVal (qCode ((t.pack p).qget a.toNat l)) (t.pack p).beta) :=
  vectorResult_of (fun _ => rfl) (fun _ _ _ => rfl)

/-- Settles O5: each instruction meets the Q rule or, where it writes a vector register, the vector rule; QCMP alone checks its
sources, and only for the hard comparison. -/
theorem probabilityInstructions : Obligations.ProbabilityInstructions := by
  constructor
  · intro g rel lin rule op m d a b u w
    exact ⟨qcmp_result g rel lin d a b, qand_result g rule d a b, qor_result g rule d a b, qnot_result g d a,
      qmov_qq_result g d a, qmov_fromV_result g d a, qmov_toV_result g d a, qlin_result g op m d a⟩
  · intro g d a b c
    exact ⟨qblend_result g d a b c, qgrad_result g d a⟩

end Sys2Proof.Machine
end
